-- ==== Sys2Proof/Word.lean ====
section
/-! DEFINITION. The word types of XBT-CORE (00_scope.md R6, R7). -/

namespace Sys2Proof

/-- A source byte, an 8-bit pixel index, a colour channel, a register number. -/
abbrev Byte := BitVec 8

/-- A VRAM word, a palette entry, a coordinate or a dimension (R6 DIM_W = 16). -/
abbrev Half := BitVec 16

/-- A register transfer, a command word, a source offset (R6 REG_W = SRC_OFF_W = 32). -/
abbrev Word := BitVec 32

end Sys2Proof
end

