-- ==== Sys2Proof/Syntax.lean ====
section
/-! DEFINITION. The instructions of XBT-CORE: one constructor per row of spec/opcode_table.json. -/

namespace Sys2Proof

/-- The commands of 30_encoding.md R82 and the token forms of R84. A command has no operand fields (R81, R90).
The three rows of LIT differ in the top two bits of the byte; each carries the whole byte, which is the pixel (R85). -/
inductive Instr where
  /-- NOP, command word 0 (R101). -/
  | nop
  /-- CONVERT_PALETTE, command word 1 (R120). -/
  | convertPalette
  /-- DRAW_IMAGE, command word 2 (R160). -/
  | drawImage
  /-- DRAW_LINE, command word 3 (R180). -/
  | drawLine
  /-- DECODE_PIXEL, command word 4 (R147). -/
  | decodePixel
  /-- LIT, row `00vvvvvv` (R141). -/
  | lit00 (value : Byte)
  /-- LIT, row `01vvvvvv` (R141). -/
  | lit01 (value : Byte)
  /-- LIT, row `10vvvvvv` (R141). -/
  | lit10 (value : Byte)
  /-- RUN, row `11nnnnnn vvvvvvvv`: length N and fill byte V (R142). -/
  | run (length : BitVec 6) (fill : Byte)
  deriving DecidableEq, Repr

namespace Instr

/-- Is the instruction a token of the stream (R84), not a command (R82)? -/
def isToken : Instr → Bool
  | .nop => false
  | .convertPalette => false
  | .drawImage => false
  | .drawLine => false
  | .decodePixel => false
  | .lit00 _ => true
  | .lit01 _ => true
  | .lit10 _ => true
  | .run _ _ => true

end Instr

end Sys2Proof
end

