-- ==== Sys2Proof/WellFormed.lean ====
section
/-! DEFINITION. Which instructions are well formed: a literal's byte lies in its own row of the table
(30_encoding.md R84, R85). A command has no operands and every RUN length and fill byte is legal (R86), so they need no check. -/

namespace Sys2Proof

/-- The tag bits T[7:6] of a token byte (R84). -/
abbrev tokenTag (T : Byte) : BitVec 2 := T.extractLsb' 6 2

/-- The encoding can express the instruction's operands. -/
def Instr.wellFormed : Instr → Bool
  | .nop => true
  | .convertPalette => true
  | .drawImage => true
  | .drawLine => true
  | .decodePixel => true
  | .lit00 v => decide (tokenTag v = 0b00#2)
  | .lit01 v => decide (tokenTag v = 0b01#2)
  | .lit10 v => decide (tokenTag v = 0b10#2)
  | .run _ _ => true

end Sys2Proof
end

