-- ==== Sys2Proof/Decode.lean ====
section
/-! DEFINITION. The two decoders of 30_encoding.md (command words R81 to R83, tokens R84 to R86, R93), total on any bits,
rejecting by name, and the encoder written from the same tables. -/

namespace Sys2Proof

/-- Why bits are no instruction. -/
inductive DecodeError where
  /-- A command word with w[31:4] ≠ 0 (R83). -/
  | reservedBits
  /-- A command word with w[31:4] = 0 and an opcode 0x5 to 0xF (R83). -/
  | reservedOpcode
  /-- No byte where a token should start. -/
  | noToken
  /-- A run header without its fill byte. -/
  | noFill
  /-- Bytes left over after one token. -/
  | trailingBytes
  deriving DecidableEq, Repr

/-- The bits of one instruction: a command word or the bytes of a token, first byte first. -/
inductive Encoding where
  | command (w : Word)
  | token (bytes : List Byte)
  deriving DecidableEq, Repr

/-- R81: the opcode field OP = w[3:0]. -/
def commandOp (w : Word) : BitVec 4 := w.extractLsb' 0 4

/-- R81: the reserved field RSV = w[31:4]. -/
def commandRsv (w : Word) : BitVec 28 := w.extractLsb' 4 28

/-- R82, R83: the command a command word selects. -/
def decodeCommand (w : Word) : Except DecodeError Instr :=
  if commandRsv w = 0#28 then
    match (commandOp w).toNat with
    | 0x0 => .ok .nop
    | 0x1 => .ok .convertPalette
    | 0x2 => .ok .drawImage
    | 0x3 => .ok .drawLine
    | 0x4 => .ok .decodePixel
    | _ => .error .reservedOpcode
  else .error .reservedBits

/-- R93: is a token whose first byte is `T` two bytes long? -/
def isRunHeader (T : Byte) : Bool := decide (tokenTag T = 0b11#2)

/-- R93: a token's length in bytes, told from its first byte alone. -/
def tokenLength (T : Byte) : Nat := if isRunHeader T then 2 else 1

/-- R84, R85: the token whose first byte is `T` and whose second, if it has one, is `V`. Every byte starts a token (R86). -/
def tokenOf (T V : Byte) : Instr :=
  match (tokenTag T).toNat with
  | 0b00 => .lit00 T
  | 0b01 => .lit01 T
  | 0b10 => .lit10 T
  | _ => .run (T.extractLsb' 0 6) V

/-- The token at the head of a list of bytes, and the bytes after it. -/
def decodeToken : List Byte → Except DecodeError (Instr × List Byte)
  | [] => .error .noToken
  | T :: rest =>
    if isRunHeader T then
      match rest with
      | [] => .error .noFill
      | V :: rest' => .ok (tokenOf T V, rest')
    else .ok (tokenOf T 0#8, rest)

/-- One whole instruction from its bits. -/
def decode : Encoding → Except DecodeError Instr
  | .command w => decodeCommand w
  | .token bytes =>
    match decodeToken bytes with
    | .ok (i, []) => .ok i
    | .ok (_, _ :: _) => .error .trailingBytes
    | .error e => .error e

/-- The bytes of a token; none for a command. -/
def tokenBytes : Instr → List Byte
  | .nop => []
  | .convertPalette => []
  | .drawImage => []
  | .drawLine => []
  | .decodePixel => []
  | .lit00 v => [v]
  | .lit01 v => [v]
  | .lit10 v => [v]
  | .run n v => [0b11#2 ++ n, v]

/-- The bits of a well-formed instruction, from the tables of R82 and R84. -/
def encode : Instr → Encoding
  | .nop => .command 0x00000000#32
  | .convertPalette => .command 0x00000001#32
  | .drawImage => .command 0x00000002#32
  | .drawLine => .command 0x00000003#32
  | .decodePixel => .command 0x00000004#32
  | .lit00 v => .token (tokenBytes (.lit00 v))
  | .lit01 v => .token (tokenBytes (.lit01 v))
  | .lit10 v => .token (tokenBytes (.lit10 v))
  | .run n v => .token (tokenBytes (.run n v))

/-- The two bytes at the decoder cursor for a token of `nbits` bits of spec/opcode_table.json: the first byte, then the fill
byte or, for a one-byte row, zero. DEDUCED (log 13): a RUN's header is in bits [15:8] of its row (the note of that row). -/
def tableTokenBytes (nbits w : Nat) : Byte × Byte :=
  if nbits ≤ 8 then (BitVec.ofNat 8 w, 0#8)
  else (BitVec.ofNat 8 (w / 256), BitVec.ofNat 8 w)

/-- The instruction this decoder reads from the bits of a row of spec/opcode_table.json: 32-bit rows are command words, 8-bit
and 16-bit rows are tokens. -/
def decodeTableWord (nbits w : Nat) : Option Instr :=
  match nbits with
  | 32 => (decodeCommand (BitVec.ofNat 32 w)).toOption
  | 8 => some (tokenOf (tableTokenBytes 8 w).1 (tableTokenBytes 8 w).2)
  | 16 => some (tokenOf (tableTokenBytes 16 w).1 (tableTokenBytes 16 w).2)
  | _ => none

end Sys2Proof
end

