-- ==== Sys2Proof/Config.lean ====
section
/-! DEFINITION. The implementation parameters of 00_scope.md R6. They are fixed for a machine; State holds them in its field
`cfg`, which no step changes, so a claim about every state is a claim about every configuration (log 7). -/

namespace Sys2Proof

/-- The open parameters of R6. -/
structure Config where
  /-- ADDR_W: width in bits of a VRAM word address. -/
  addrW : Nat
  /-- SRC_SIZE: size in bytes of source memory. -/
  srcSize : Nat
  /-- TAG: the constant OR'd into every tagged palette entry. -/
  tag : Half
  /-- TRANSPARENT_INDEX: the palette index whose tagged entry is 0x0000. -/
  transparentIndex : Nat
  deriving DecidableEq, Repr

namespace Config

/-- R6: `1 ≤ SRC_SIZE ≤ 2^32 - 1`, TAG[11:0] = 0, TRANSPARENT_INDEX ≤ 255.
DEDUCED (log 7): ADDR_W is 1 to 32, because VRAM_BASE has bits [ADDR_W-1:0] of a 32-bit transfer (10_state.md R21). -/
def legal (c : Config) : Bool :=
  decide (1 ≤ c.addrW) && decide (c.addrW ≤ 32) &&
  decide (1 ≤ c.srcSize) && decide (c.srcSize ≤ 2 ^ 32 - 1) &&
  decide (c.tag &&& 0x0FFF#16 = 0#16) &&
  decide (c.transparentIndex ≤ 255)

/-- The number of VRAM words, 2^ADDR_W (20_memory.md R50). -/
def vramWords (c : Config) : Nat := 2 ^ c.addrW

/-- The values of R6's "value" column.
DESIGN CHOICE (log 7): SRC_SIZE is OPEN there; the largest value R6 allows stands here. -/
def standard : Config :=
  { addrW := 16, srcSize := 2 ^ 32 - 1, tag := 0xC000#16, transparentIndex := 0 }

end Config

/-- R6 PAL_BLOCK_LEN: one marker byte and 256 triples. -/
abbrev palBlockLen : Nat := 769

/-- R6 PAL_ENTRIES. -/
abbrev palEntries : Nat := 512

/-- R6 PAL_MARKER. -/
abbrev palMarker : Byte := 0x0C#8

end Sys2Proof
end

