-- ==== Sys2Proof/Machine/State.lean ====
section
/-! DEFINITION. The state of XBT-CORE as plain data (10_state.md, 20_memory.md), its stops, and the state right after reset. -/

namespace Sys2Proof.Machine

/-- The model faults of 60_exceptions.md R203, the reasons of the fault mark: cases the source gives no behaviour. -/
inductive FaultCause where
  /-- F_SRC_RANGE: a source read at or beyond SRC_SIZE, or a palette block that does not fit in source memory. -/
  | srcRange
  /-- F_RUN_OVERRUN: in unchecked mode a RUN longer than the scanline's remaining budget. -/
  | runOverrun
  deriving DecidableEq, Repr

/-- Why the model has no next state although the block has no fault. All are safe: nothing is proved of such a case. -/
inductive Refusal where
  /-- An instruction whose meaning is not written yet. Answered by a refused arm of `exec` only. Safe. -/
  | notModelled (mnemonic : String)
  /-- A configuration that R6 says is not one of this hardware. Answered by `step`. Safe. -/
  | illegalConfig
  /-- The host puts a byte at or beyond SRC_SIZE, where there is no byte (20_memory.md R51). Answered by `step`. Safe (log 10). -/
  | hostLoadOutside
  /-- A command where the pull expects a token. Never answered: a fetched token is never a command (log 21). Safe. -/
  | commandAsToken
  deriving DecidableEq, Repr

/-- The errors a command reports in STATUS.ERR (60_exceptions.md R201). -/
inductive ErrorCode where
  | badSignature
  | unexpectedEof
  | runOverrun
  | badCommand
  deriving DecidableEq, Repr

/-- How a command stops early: `raise E` or `fault F` (00_scope.md R8). -/
inductive Stop where
  | error (e : ErrorCode)
  | fault (c : FaultCause)
  deriving DecidableEq, Repr

/-- A sink operation with its arguments and, for VramRead, the value returned (R9; 20_memory.md R55, R56). -/
inductive SinkOp where
  | vramSetCursor (a : Nat)
  | vramWrite (v : Half)
  | vramRead (a : Nat) (value : Half)
  | palSetCursor
  | palWrite (v : Half)
  deriving DecidableEq, Repr

/-- What the host does in one transaction, between commands. Register accesses are 10_state.md R22 and the reset is
70_reset_and_hazards.md R230. DEDUCED (log 9, log 10): the host loads source memory and uses the devices the same way. -/
inductive HostTxn where
  /-- `WriteReg(n, d)`; with n = 0x01 it runs a command (40_command_dispatch.md R100). -/
  | writeReg (n : Byte) (d : Word)
  /-- `ReadReg(n)`. -/
  | readReg (n : Byte)
  /-- Reset of the block. -/
  | reset
  /-- Put a byte into source memory (20_memory.md R64, 70_reset_and_hazards.md R232). -/
  | loadSrc (offset : Nat) (b : Byte)
  /-- The host's own use of the devices (20_memory.md R61, 70_reset_and_hazards.md R236). -/
  | vramSetCursor (a : Nat)
  | vramWrite (v : Half)
  | vramRead (a : Nat)
  | palSetCursor
  | palWrite (v : Half)
  deriving DecidableEq, Repr

/-- Which command is pulling pixels, with the budget of its pull (42_rle_decoder.md R143): INF for DECODE_PIXEL, the pixels
left in the scanline for DRAW_IMAGE. `idle`: none. The model's own (log 2). -/
inductive Puller where
  | idle
  | decodePixel
  | drawImage (budget : Nat)
  deriving DecidableEq, Repr

/-- A memory of `w`-bit units, sparse: (address, value) pairs in canonical form, an unlisted address reading as 0 (log 6). -/
abbrev Memory (w : Nat) := List (Nat × BitVec w)

/-- The registers that only host writes change (40_command_dispatch.md R103), each with its implemented bits (R21). -/
structure Params where
  /-- CTRL.CHK (R24): true is checked mode. -/
  chk : Bool
  /-- SRC_LEN (R28). -/
  srcLen : Word
  /-- PAL_PTR (R29). -/
  palPtr : Word
  /-- VRAM_BASE (R30), its bits [31:ADDR_W] zero (log 18). -/
  vramBase : Word
  /-- STRIDE (R31). -/
  stride : Half
  /-- XPOS (R32). -/
  xpos : Half
  /-- YPOS (R32). -/
  ypos : Half
  /-- WIDTH (R33). -/
  width : Half
  /-- HEIGHT (R33). -/
  height : Half
  /-- X0 (R34). -/
  x0 : Half
  /-- Y0 (R34). -/
  y0 : Half
  /-- X1 (R34). -/
  x1 : Half
  /-- Y1 (R34). -/
  y1 : Half
  /-- COLOR (R35). -/
  color : Byte
  deriving DecidableEq, Repr

/-- The reset values of R21: CTRL = 1, every other register 0. -/
def Params.reset : Params :=
  { chk := true, srcLen := 0#32, palPtr := 0#32, vramBase := 0#32, stride := 0#16, xpos := 0#16, ypos := 0#16,
    width := 0#16, height := 0#16, x0 := 0#16, y0 := 0#16, x1 := 0#16, y1 := 0#16, color := 0#8 }

/-- The VRAM device and the palette device (20_memory.md R55, R56). -/
structure Devices where
  /-- VRAM, 2^ADDR_W words. -/
  vram : Memory 16
  /-- WR_CURSOR, below 2^ADDR_W. -/
  wrCursor : Nat
  /-- PAL, 512 entries. -/
  pal : Memory 16
  /-- PAL_CURSOR. -/
  palCursor : BitVec 9
  deriving DecidableEq, Repr

/-- The state of the machine (10_state.md R20, 20_memory.md R51, R55, R56) and the model's own fields. -/
structure State where
  /-- The parameters of R6: constant, a model argument (log 7). -/
  cfg : Config
  /-- The registers only the host writes. -/
  par : Params
  /-- SRC_PTR (R27). -/
  srcPtr : Word
  /-- STATUS.ERR (R26). -/
  err : BitVec 4
  /-- STATUS.WARN (R26). -/
  warn : Bool
  /-- PIXEL.VALID (R36). -/
  pixelValid : Bool
  /-- PIXEL.VALUE (R36). -/
  pixelValue : Byte
  /-- RUN_CNT (R38). -/
  runCnt : BitVec 6
  /-- RUN_VAL (R38). -/
  runVal : Byte
  /-- PEND_VALID (R39). -/
  pendValid : Bool
  /-- PEND_BYTE (R39). -/
  pendByte : Byte
  /-- SRC, the source memory (20_memory.md R51). -/
  src : Memory 8
  /-- The two devices. -/
  dev : Devices
  /-- FAULTED and its reason (R43, log 5). -/
  faulted : Option FaultCause
  /-- The host's pending transactions, oldest first. The model's own (log 1). -/
  inbox : List HostTxn
  /-- The data of the host's last read. The model's own (log 4). -/
  readData : Word
  /-- The sink operations of the last command word, newest first. The model's own (log 3). -/
  sinkLog : List SinkOp
  /-- Who pulls pixels. The model's own (log 2). -/
  puller : Puller
  /-- The pixel the current pull returned. The model's own (log 2). -/
  pulled : Option Byte
  deriving DecidableEq, Repr

/-- A model fault, with the state it stops in (60_exceptions.md R203): everything up to the failing point has happened, so the sink
operations issued before the fault are in its trace, and the fault mark is set (log 5). Both are safe: the machine stops where some
implementation goes on, so no claim rests on what that implementation does. -/
inductive Fault where
  /-- F_SRC_RANGE. Raised by CONVERT_PALETTE, DECODE_PIXEL and DRAW_IMAGE, and by `step` of a state so marked. Safe. -/
  | srcRange (stuck : State)
  /-- F_RUN_OVERRUN. Raised by RUN within DRAW_IMAGE, and by `step` of a state so marked. Safe. -/
  | runOverrun (stuck : State)
  deriving DecidableEq, Repr

/-- The reason of a fault. -/
def Fault.cause : Fault → FaultCause
  | .srcRange _ => .srcRange
  | .runOverrun _ => .runOverrun

/-- The faulted state. -/
def Fault.state : Fault → State
  | .srcRange s => s
  | .runOverrun s => s

/-- The three outcomes of an instruction or a step. -/
abbrev Result := Host.Outcome State Fault Refusal

namespace State

/-- 00_scope.md R9: the trace of the last command word, oldest operation first. -/
def trace (s : State) : List SinkOp := s.sinkLog.reverse

/-- The machine right after reset (70_reset_and_hazards.md R230), with the standard parameters of R6.
DESIGN CHOICE (log 6, log 7): R230 leaves the devices and source memory unspecified and R6 leaves SRC_SIZE open; nothing is
listed in the memories, the cursors are 0, and SRC_SIZE is the largest. -/
def reset : State :=
  { cfg := Config.standard
    par := Params.reset
    srcPtr := 0#32
    err := 0#4
    warn := false
    pixelValid := false
    pixelValue := 0#8
    runCnt := 0#6
    runVal := 0#8
    pendValid := false
    pendByte := 0#8
    src := []
    dev := { vram := [], wrCursor := 0, pal := [], palCursor := 0#9 }
    faulted := none
    inbox := []
    readData := 0#32
    sinkLog := []
    puller := .idle
    pulled := none }

end State

end Sys2Proof.Machine
end

