-- ==== Sys2Proof/Machine/Flags.lean ====
section
/-! DEFINITION. The flags STATUS.ERR, STATUS.WARN and PIXEL.VALID (10_state.md R26, R36, R42) and the register words they stand in. -/

namespace Sys2Proof.Machine

/-- The code of an error in STATUS.ERR (60_exceptions.md R201). -/
def ErrorCode.code : ErrorCode → BitVec 4
  | .badSignature => 1#4
  | .unexpectedEof => 2#4
  | .runOverrun => 3#4
  | .badCommand => 4#4

/-- `x[STATUS] <- 0`: ERR is OK and WARN is 0 (40_command_dispatch.md R100). -/
def clearStatus (s : State) : State := { s with err := 0#4, warn := false }

/-- `x[STATUS].ERR <- code(E)`; WARN is kept (60_exceptions.md R205). -/
def setError (e : ErrorCode) (s : State) : State := { s with err := e.code }

/-- `warn UNFLUSHED` (R8, 60_exceptions.md R202). -/
def warnUnflushed (s : State) : State := { s with warn := true }

/-- `x[PIXEL] <- zext_32(0b1 ++ p)` (42_rle_decoder.md R147). -/
def setPixel (p : Byte) (s : State) : State := { s with pixelValid := true, pixelValue := p }

/-- `x[PIXEL] <- 0` (42_rle_decoder.md R147, 60_exceptions.md R205). -/
def clearPixel (s : State) : State := { s with pixelValid := false, pixelValue := 0#8 }

/-- The word a read of STATUS gives: ERR in [3:0], WARN in [4], the rest 0 (R26). -/
def statusWord (s : State) : Word := 0#27 ++ BitVec.ofBool s.warn ++ s.err

/-- The word a read of PIXEL gives: VALUE in [7:0], VALID in [8], the rest 0 (R36). -/
def pixelWord (s : State) : Word := 0#23 ++ BitVec.ofBool s.pixelValid ++ s.pixelValue

/-- The word a read of DEC_STATE gives: `zext_32(RUN_VAL ++ 0b00 ++ RUN_CNT)` (R37). -/
def decStateWord (s : State) : Word := 0#16 ++ s.runVal ++ 0b00#2 ++ s.runCnt

end Sys2Proof.Machine
end

