-- ==== Sys2Proof/Machine/Ops.lean ====
section
/-! DEFINITION. The named operations over memory, devices and registers (20_memory.md, 10_state.md), `raise` (60_exceptions.md
R205), the start of a command, and reset. -/

namespace Sys2Proof.Machine

/-! ### Memories -/

/-- What a memory unit holds; an unlisted address reads as 0 (log 6). -/
def Memory.read {w : Nat} (m : Memory w) (a : Nat) : BitVec w :=
  match m with
  | [] => 0#w
  | (b, x) :: rest => if b = a then x else Memory.read rest a

/-- Put `v` at `a`, keeping the canonical form: addresses rising, no entry equal to 0. -/
def Memory.write {w : Nat} (m : Memory w) (a : Nat) (v : BitVec w) : Memory w :=
  match m with
  | [] => if v = 0#w then [] else [(a, v)]
  | (b, x) :: rest =>
    if a < b then (if v = 0#w then (b, x) :: rest else (a, v) :: (b, x) :: rest)
    else if a = b then (if v = 0#w then rest else (a, v) :: rest)
    else (b, x) :: Memory.write rest a v

/-- The canonical form: addresses strictly rising and no entry equal to what an unlisted address reads as. -/
abbrev Memory.wf {w : Nat} (m : Memory w) : Prop :=
  m.Pairwise (fun x y => x.1 < y.1) ∧ ∀ c ∈ m, c.2 ≠ 0#w

/-- Every listed address lies below the size of the space. -/
abbrev Memory.below {w : Nat} (m : Memory w) (size : Nat) : Prop := ∀ c ∈ m, c.1 < size

/-! ### Outcomes -/

/-- Go on from a next state; a fault or a refusal ends the run. -/
def andThen (r : Result) (f : State → Result) : Result :=
  match r with
  | .next s => f s
  | .fault x => .fault x
  | .refused x => .refused x

/-! ### Source memory -/

/-- `MemRead(off, 1)`: the byte of source memory, or fault F_SRC_RANGE at or beyond SRC_SIZE (20_memory.md R51). -/
def memRead (off : Nat) (s : State) : Except Stop Byte :=
  if s.cfg.srcSize ≤ off then .error (.fault .srcRange) else .ok (Memory.read s.src off)

/-- `SrcFetch(off)`: in checked mode an offset at or beyond SRC_LEN raises UNEXPECTED_EOF; then MemRead (20_memory.md R52). -/
def srcFetch (off : Nat) (s : State) : Except Stop Byte :=
  if s.par.chk = true ∧ s.par.srcLen.toNat ≤ off then .error (.error .unexpectedEof) else memRead off s

/-- The host puts a byte into source memory between commands (20_memory.md R64, log 10). -/
def loadSrc (off : Nat) (b : Byte) (s : State) : Result :=
  if s.cfg.srcSize ≤ off then .refused .hostLoadOutside else .next { s with src := Memory.write s.src off b }

/-! ### Devices -/

/-- `VramRead(a)`, the value (20_memory.md R55). -/
def Devices.vramRead (c : Config) (a : Nat) (d : Devices) : Half := Memory.read d.vram (a % c.vramWords)

/-- A sink operation applied to the devices (20_memory.md R55, R56). -/
def Devices.apply (c : Config) (op : SinkOp) (d : Devices) : Devices :=
  match op with
  | .vramSetCursor a => { d with wrCursor := a % c.vramWords }
  | .vramWrite v =>
    { d with vram := Memory.write d.vram d.wrCursor v, wrCursor := (d.wrCursor + 1) % c.vramWords }
  | .vramRead _ _ => d
  | .palSetCursor => { d with palCursor := 0#9 }
  | .palWrite v => { d with pal := Memory.write d.pal d.palCursor.toNat v, palCursor := d.palCursor + 1#9 }

/-- The block issues a sink operation: it is applied at once (20_memory.md R60) and recorded in the trace (00_scope.md R9). -/
def issue (op : SinkOp) (s : State) : State :=
  { s with dev := s.dev.apply s.cfg op, sinkLog := op :: s.sinkLog }

/-- The block issues `VramRead(a)`: the value returned goes into the trace with it (00_scope.md R9). -/
def issueVramRead (a : Nat) (s : State) : State := issue (.vramRead a (s.dev.vramRead s.cfg a)) s

/-! ### Commands -/

/-- Dispatch of a command word: STATUS is cleared and a new trace begins (40_command_dispatch.md R100, 00_scope.md R9, log 19). -/
def beginCommand (s : State) : State := { clearStatus s with sinkLog := [] }

/-- `RUN_CNT <- 0; RUN_VAL <- 0` (10_state.md R38). -/
def clearDecoder (s : State) : State := { s with runCnt := 0#6, runVal := 0#8 }

/-- The pulling command is over: nobody pulls. -/
def endPulling (s : State) : State := { s with puller := .idle, pulled := none }

/-- `raise E`: TAKING AN ERROR (60_exceptions.md R205). STATUS.ERR is written and WARN kept; DECODE_PIXEL clears PIXEL;
DRAW_IMAGE clears the packer and decoder state; the command ends. Nothing is rolled back and no other register changes.
DEDUCED (log 12): the info of `raise E(info)` is stored nowhere (R201). -/
def raiseError (e : ErrorCode) (s : State) : State :=
  match s.puller with
  | .idle => endPulling (setError e s)
  | .decodePixel => endPulling (clearPixel (setError e s))
  | .drawImage _ => endPulling (clearDecoder { setError e s with pendValid := false })

/-- The fault of this cause that stops in the state `s`. -/
def faultAt (c : FaultCause) (s : State) : Fault :=
  match c with
  | .srcRange => .srcRange s
  | .runOverrun => .runOverrun s

/-- The model's fault mark is set (10_state.md R43, 60_exceptions.md R203). -/
def markFault (c : FaultCause) (s : State) : State := { s with faulted := some c }

/-- `fault F` (00_scope.md R8, 60_exceptions.md R203): TAKING A MODEL FAULT. The faulted state is the state the command has reached,
its trace included, with the fault mark set (log 5). -/
def takeFault (c : FaultCause) (s : State) : Result := .fault (faultAt c (markFault c s))

/-- A command stops early: by a reported error the machine goes on, by a model fault it stops (60_exceptions.md R200). -/
def stopCommand (st : Stop) (s : State) : Result :=
  match st with
  | .error e => .next (raiseError e s)
  | .fault c => takeFault c s

/-- BadCommand: `x[STATUS] <- 0x00000004` and nothing else (40_command_dispatch.md R102). The new trace is empty. -/
def badCommand (s : State) : State := setError .badCommand (beginCommand s)

/-! ### Registers -/

/-- `ReadReg(n)` (10_state.md R21, R22, R23): unimplemented bits read 0, CMD and reserved numbers read 0. -/
def readReg (n : Byte) (s : State) : Word :=
  match n.toNat with
  | 0x00 => (BitVec.ofBool s.par.chk).setWidth 32
  | 0x01 => 0#32
  | 0x02 => statusWord s
  | 0x03 => s.srcPtr
  | 0x04 => s.par.srcLen
  | 0x05 => s.par.palPtr
  | 0x06 => s.par.vramBase
  | 0x07 => s.par.stride.setWidth 32
  | 0x08 => s.par.xpos.setWidth 32
  | 0x09 => s.par.ypos.setWidth 32
  | 0x0A => s.par.width.setWidth 32
  | 0x0B => s.par.height.setWidth 32
  | 0x0C => s.par.x0.setWidth 32
  | 0x0D => s.par.y0.setWidth 32
  | 0x0E => s.par.x1.setWidth 32
  | 0x0F => s.par.y1.setWidth 32
  | 0x10 => s.par.color.setWidth 32
  | 0x11 => pixelWord s
  | 0x12 => decStateWord s
  | _ => 0#32

/-- A write of SRC_PTR also clears the decoder state (10_state.md R27). -/
def writeSrcPtr (d : Word) (s : State) : State := clearDecoder { s with srcPtr := d }

/-- The bits [ADDR_W-1:0] of a written VRAM_BASE (10_state.md R21). -/
def vramBaseBits (c : Config) (d : Word) : Word := BitVec.ofNat 32 (d.toNat % c.vramWords)

/-- What `WriteReg(n, d)` stores, for n other than CMD (10_state.md R22, R23): unimplemented bits are dropped, read-only and
reserved registers ignore the write. -/
def storeReg (n : Byte) (d : Word) (s : State) : State :=
  match n.toNat with
  | 0x00 => { s with par := { s.par with chk := d.getLsbD 0 } }
  | 0x03 => writeSrcPtr d s
  | 0x04 => { s with par := { s.par with srcLen := d } }
  | 0x05 => { s with par := { s.par with palPtr := d } }
  | 0x06 => { s with par := { s.par with vramBase := vramBaseBits s.cfg d } }
  | 0x07 => { s with par := { s.par with stride := d.setWidth 16 } }
  | 0x08 => { s with par := { s.par with xpos := d.setWidth 16 } }
  | 0x09 => { s with par := { s.par with ypos := d.setWidth 16 } }
  | 0x0A => { s with par := { s.par with width := d.setWidth 16 } }
  | 0x0B => { s with par := { s.par with height := d.setWidth 16 } }
  | 0x0C => { s with par := { s.par with x0 := d.setWidth 16 } }
  | 0x0D => { s with par := { s.par with y0 := d.setWidth 16 } }
  | 0x0E => { s with par := { s.par with x1 := d.setWidth 16 } }
  | 0x0F => { s with par := { s.par with y1 := d.setWidth 16 } }
  | 0x10 => { s with par := { s.par with color := d.setWidth 8 } }
  | _ => s

/-! ### Reset -/

/-- Reset of the block (70_reset_and_hazards.md R230): registers and hidden state to their reset values, the fault mark cleared;
VRAM, PAL, their cursors and source memory untouched; no sink operation. The host's own queue and last read stay (log 11). -/
def resetBlock (s : State) : State :=
  { s with
    par := Params.reset
    srcPtr := 0#32
    err := 0#4
    warn := false
    pixelValid := false
    pixelValue := 0#8
    runCnt := 0#6
    runVal := 0#8
    pendValid := false
    pendByte := 0#8
    faulted := none
    sinkLog := []
    puller := .idle
    pulled := none }

/-! ### Placing an instruction where the next step finds it -/

/-- A host write of the command word `w` to CMD, as the next transaction (log 1). -/
def placeCommand (w : Word) (s : State) : State := { s with inbox := .writeReg 0x01#8 w :: s.inbox }

/-- The bytes `T`, `V` at the decoder cursor, readable in either mode, with no run left over, and a DECODE_PIXEL as the next
transaction: its pull fetches the token (log 14). -/
def placeToken (T V : Byte) (s : State) : State :=
  let at0 := s.srcPtr.toNat
  placeCommand 0x00000004#32
    { s with
      src := Memory.write (Memory.write s.src at0 T) (at0 + 1) V
      runCnt := 0#6
      par := { s.par with
        srcLen := if s.par.chk = true ∧ s.par.srcLen.toNat < at0 + 2 then BitVec.ofNat 32 (at0 + 2) else s.par.srcLen } }

end Sys2Proof.Machine
end

