-- ==== Sys2Proof/Machine/Operands.lean ====
section
/-! DEFINITION. Operand forms (30_encoding.md R90): every operand of a command is a register, read as an unsigned integer; the
addresses computed from them; the budget of a pull; the data formats R88 and R89. -/

namespace Sys2Proof.Machine

/-- `RowStart(y) = (VRAM_BASE + (YPOS + y) * STRIDE + (XPOS >> 1)) mod 2^ADDR_W` (43_pixel_pair_packer.md R161). -/
def rowStart (c : Config) (p : Params) (y : Nat) : Nat :=
  (p.vramBase.toNat + (p.ypos.toNat + y) * p.stride.toNat + p.xpos.toNat / 2) % c.vramWords

/-- `PlotAddr(X, Y) = (VRAM_BASE + Y * STRIDE + (X >> 1)) mod 2^ADDR_W` (44_line_rasterizer.md R185). -/
def plotAddr (c : Config) (p : Params) (x y : Nat) : Nat :=
  (p.vramBase.toNat + y * p.stride.toNat + x / 2) % c.vramWords

/-- `PackedWord(p0, p1) = p0 ++ p1`: the first pixel is the high byte (30_encoding.md R89). -/
def packedWord (p0 p1 : Byte) : Half := p0 ++ p1

/-- The word a Plot writes back: colour `c` replaces the byte of the pixel's column, the other byte stays
(44_line_rasterizer.md R184). -/
def plotWord (x : Nat) (c : Byte) (w : Half) : Half :=
  if x % 2 = 0 then c ++ w.extractLsb' 0 8 else w.extractLsb' 8 8 ++ c

/-- `N > budget`, for a RUN of length N: never with budget INF (42_rle_decoder.md R143).
DESIGN CHOICE (log 20): with no command pulling there is no budget. -/
def overBudget (puller : Puller) (n : BitVec 6) : Bool :=
  match puller with
  | .idle => false
  | .decodePixel => false
  | .drawImage budget => decide (budget < n.toNat)

/-- The channel quantizer `q(c) = c[7:4]` (41_palette_converter.md R121). -/
def quantize (c : Byte) : BitVec 4 := c.extractLsb' 4 4

/-- `Plain(R, G, B) = (q(R) << 8) | (q(G) << 4) | q(B)` (41_palette_converter.md R122, 30_encoding.md R88). -/
def plainEntry (r g b : Byte) : Half := 0#4 ++ quantize r ++ quantize g ++ quantize b

/-- `Tagged(i, R, G, B)`: 0x0000 at the transparent index, else the plain entry OR'd with TAG (41_palette_converter.md R123). -/
def taggedEntry (c : Config) (i : Nat) (r g b : Byte) : Half :=
  if i = c.transparentIndex then 0x0000#16 else plainEntry r g b ||| c.tag

end Sys2Proof.Machine
end

