-- ==== Sys2Proof/Machine/Line.lean ====
section
/-! DEFINITION. LineRasterizer (44_line_rasterizer.md): DRAW_LINE. The points depend on the registers alone, so they are computed
first and plotted in their order; the trace is that of R180, where plotting and stepping alternate (log 17). -/

namespace Sys2Proof.Machine

/-- What R181 computes once: `dx`, `dy`, `sx`, `sy` and the end point. All are mathematical integers. -/
structure LineSetup where
  dx : Int
  dy : Int
  sx : Int
  sy : Int
  xe : Int
  ye : Int
  deriving DecidableEq, Repr

/-- The current point and `err` (R180). -/
structure LinePos where
  x : Int
  y : Int
  err : Int
  deriving DecidableEq, Repr

/-- The initialisation from end points (R181). -/
def lineSetup (x0 y0 x1 y1 : Int) : LineSetup :=
  { dx := |x1 - x0|, dy := -|y1 - y0|, sx := (x1 - x0).sign, sy := (y1 - y0).sign, xe := x1, ye := y1 }

/-- The first position: the start point, `err = dx + dy` (R180, R181). -/
def lineStart (x0 y0 : Int) (l : LineSetup) : LinePos := { x := x0, y := y0, err := l.dx + l.dy }

/-- The x step, taken when `e2 >= dy` (R182). -/
def stepX (l : LineSetup) (e2 : Int) (p : LinePos) : LinePos :=
  if e2 ≥ l.dy then { p with err := p.err + l.dy, x := p.x + l.sx } else p

/-- The y step, taken when `e2 <= dx` (R182). -/
def stepY (l : LineSetup) (e2 : Int) (p : LinePos) : LinePos :=
  if e2 ≤ l.dx then { p with err := p.err + l.dx, y := p.y + l.sy } else p

/-- One step: `e2` is computed once, the x step comes first, both may be taken (R182). -/
def lineStep (l : LineSetup) (p : LinePos) : LinePos := stepY l (2 * p.err) (stepX l (2 * p.err) p)

/-- R183: is this the end point? -/
def atEnd (l : LineSetup) (p : LinePos) : Bool := decide (p.x = l.xe) && decide (p.y = l.ye)

/-- The positions of the loop of R180 up to and with the end point, at most `fuel` of them. -/
def lineWalk (l : LineSetup) : Nat → LinePos → List LinePos
  | 0, _ => []
  | fuel + 1, p => p :: (if atEnd l p = true then [] else lineWalk l fuel (lineStep l p))

/-- Enough fuel for every line: the point count `max(dx, -dy) + 1` of R188 (log 17). -/
def lineFuel (l : LineSetup) : Nat := (max l.dx (-l.dy)).toNat + 1

/-- The positions of the line in the registers (R180: the loop works on copies). -/
def linePositions (p : Params) : List LinePos :=
  let x0 : Int := p.x0.toNat
  let y0 : Int := p.y0.toNat
  let l := lineSetup x0 y0 p.x1.toNat p.y1.toNat
  lineWalk l (lineFuel l) (lineStart x0 y0 l)

/-- The points in plotting order. -/
def linePoints (p : Params) : List (Nat × Nat) := (linePositions p).map fun q => (q.x.toNat, q.y.toNat)

/-- `Plot(X, Y, c)`: read, set the cursor, write back (R184). -/
def plot (c : Byte) (pt : Nat × Nat) (s : State) : State :=
  let a := plotAddr s.cfg s.par pt.1 pt.2
  let w := s.dev.vramRead s.cfg a
  issue (.vramWrite (plotWord pt.1 c w)) (issue (.vramSetCursor a) (issueVramRead a s))

/-- The points plotted one after the other. -/
def plotAll (c : Byte) (pts : List (Nat × Nat)) (s : State) : State := pts.foldl (fun t pt => plot c pt t) s

/-- DRAW_LINE (R180). It raises no error (R189). -/
def execDrawLine (s : State) : Result := .next (plotAll s.par.color (linePoints s.par) (beginCommand s))

end Sys2Proof.Machine
end

