-- ==== Sys2Proof/Machine/Decoder.lean ====
section
/-! DEFINITION. RunLengthPixelDecoder (42_rle_decoder.md): the tokens LIT and RUN, the pull NextPixel, and DECODE_PIXEL. -/

namespace Sys2Proof.Machine

/-! ### The tokens -/

/-- LIT: `x[SRC_PTR] <- t0 + 1; return T` (R141, R143); RUN_CNT and RUN_VAL are unchanged. -/
def takeLiteral (T : Byte) (s : State) : Result :=
  .next { s with srcPtr := s.srcPtr + 1#32, pulled := some T }

/-- LIT with tag 00. -/
def execLit00 (T : Byte) (s : State) : Result := takeLiteral T s

/-- LIT with tag 01: a literal although one of its top two bits is set (R141). -/
def execLit01 (T : Byte) (s : State) : Result := takeLiteral T s

/-- LIT with tag 10: a literal although one of its top two bits is set (R141). -/
def execLit10 (T : Byte) (s : State) : Result := takeLiteral T s

/-- RUN (R142, R143): a run longer than the budget is RUN_OVERRUN in checked mode and F_RUN_OVERRUN in unchecked mode
(43_pixel_pair_packer.md R164), not consumed; else the token is consumed and, unless it is empty (R144), yields V and leaves
N - 1 more. -/
def execRun (n : BitVec 6) (v : Byte) (s : State) : Result :=
  if overBudget s.puller n = true then
    stopCommand (if s.par.chk = true then .error .runOverrun else .fault .runOverrun) s
  else if n = 0#6 then .next { s with srcPtr := s.srcPtr + 2#32 }
  else .next { s with srcPtr := s.srcPtr + 2#32, runCnt := n - 1#6, runVal := v, pulled := some v }

/-- Run a fetched token: the meaning `exec` gives it. A fetched token is never a command (log 21). -/
def runToken (i : Instr) (s : State) : Result :=
  match i with
  | .lit00 T => execLit00 T s
  | .lit01 T => execLit01 T s
  | .lit10 T => execLit10 T s
  | .run n v => execRun n v s
  | .nop => .refused .commandAsToken
  | .convertPalette => .refused .commandAsToken
  | .drawImage => .refused .commandAsToken
  | .drawLine => .refused .commandAsToken
  | .decodePixel => .refused .commandAsToken

/-! ### The pull -/

/-- Fetch and decode the token at SRC_PTR: the header byte through SrcFetch and, for a run header, the fill byte
(R143; the order of their checks is 60_exceptions.md R204). -/
def fetchToken (s : State) : Except Stop Instr :=
  match srcFetch s.srcPtr.toNat s with
  | .error st => .error st
  | .ok T =>
    if isRunHeader T = true then
      match srcFetch (s.srcPtr.toNat + 1) s with
      | .error st => .error st
      | .ok V => .ok (tokenOf T V)
    else .ok (tokenOf T 0#8)

/-- The pull is over when it has a pixel or when an error has ended the command (60_exceptions.md R205). -/
def pullOver (s : State) : Bool := s.pulled.isSome || decide (s.puller = .idle)

/-- The loop of NextPixel (R143), with fuel for at most that many tokens. Without fuel the cursor is past source memory, where
the next read faults (70_reset_and_hazards.md R240); `nextPixel` gives enough fuel (log 17). -/
def pullLoop : Nat → State → Result
  | 0, s => takeFault .srcRange s
  | fuel + 1, s =>
    match fetchToken s with
    | .error st => stopCommand st s
    | .ok i => andThen (runToken i s) fun t => if pullOver t = true then .next t else pullLoop fuel t

/-- One token consumes at least one byte of source memory, so a pull reads at most `SRC_SIZE - x[SRC_PTR] + 1` tokens
(70_reset_and_hazards.md R240). -/
def pullFuel (s : State) : Nat := s.cfg.srcSize - s.srcPtr.toNat + 1

/-- `NextPixel(budget)` (R143): the rest of a run already decoded, or the next pixel of the token stream. The caller has set
`puller`, which holds the budget; the pixel is left in `pulled`. -/
def nextPixel (s : State) : Result :=
  if s.runCnt = 0#6 then pullLoop (pullFuel s) { s with pulled := none }
  else .next { s with runCnt := s.runCnt - 1#6, pulled := some s.runVal }

/-! ### DECODE_PIXEL -/

/-- PIXEL takes the pixel the pull returned; if the pull raised, the command has ended already (R147). -/
def latchPixel (s : State) : State :=
  match s.pulled with
  | some p => endPulling (setPixel p s)
  | none => s

/-- DECODE_PIXEL (R147): one pull with budget INF. -/
def execDecodePixel (s : State) : Result :=
  andThen (nextPixel { beginCommand s with puller := .decodePixel }) fun t => .next (latchPixel t)

end Sys2Proof.Machine
end

