-- ==== Sys2Proof/Machine/Packer.lean ====
section
/-! DEFINITION. PixelPairPacker (43_pixel_pair_packer.md): DRAW_IMAGE. -/

namespace Sys2Proof.Machine

/-- A pixel enters the packer: the first of a pair is held, the second completes the word (R160, R162). -/
def packPixel (p : Byte) (s : State) : State :=
  if s.pendValid = true then { issue (.vramWrite (packedWord s.pendByte p)) s with pendValid := false }
  else { s with pendByte := p, pendValid := true }

/-- The pixel the pull returned enters the packer. -/
def packPulled (s : State) : State :=
  match s.pulled with
  | some p => packPixel p { s with pulled := none }
  | none => s

/-- The pixels of one scanline, `left` of them still to be pulled: the budget of each pull is what is left (R160, R164). A pull
that raises ends the command (R169). -/
def drawPixels : Nat → State → Result
  | 0, s => .next s
  | left + 1, s =>
    andThen (nextPixel { s with puller := .drawImage (left + 1) }) fun t =>
      if t.puller = .idle then .next t else drawPixels left (packPulled t)

/-- The end of a scanline: a pending pixel is discarded with a warning (R163). -/
def endScanline (s : State) : State :=
  if s.pendValid = true then { warnUnflushed s with pendValid := false } else s

/-- The start of scanline `y`: the cursor is set once per row (R161). -/
def startScanline (y : Nat) (s : State) : State := issue (.vramSetCursor (rowStart s.cfg s.par y)) s

/-- The scanlines from `y` on, `left` of them (R160). -/
def drawRows : Nat → Nat → State → Result
  | 0, _, s => .next s
  | left + 1, y, s =>
    andThen (drawPixels s.par.width.toNat (startScanline y s)) fun t =>
      if t.puller = .idle then .next t else drawRows left (y + 1) (endScanline t)

/-- The start of DRAW_IMAGE: decoder and packer state cleared, no leak in (R160, 42_rle_decoder.md R148). -/
def beginImage (s : State) : State :=
  { clearDecoder (beginCommand s) with pendValid := false, puller := .drawImage s.par.width.toNat, pulled := none }

/-- The end of DRAW_IMAGE: the decoder state cleared, no leak out (R160). After an error the command has ended already, with the
same state cleared (R169). -/
def endImage (s : State) : State := if s.puller = .idle then s else endPulling (clearDecoder s)

/-- DRAW_IMAGE (R160). -/
def execDrawImage (s : State) : Result :=
  andThen (drawRows s.par.height.toNat 0 (beginImage s)) fun t => .next (endImage t)

end Sys2Proof.Machine
end

