-- ==== Sys2Proof/Machine/Palette.lean ====
section
/-! DEFINITION. PaletteConverter (41_palette_converter.md): CONVERT_PALETTE. -/

namespace Sys2Proof.Machine

/-- Byte `k` of the palette block at PAL_PTR (30_encoding.md R87). The block has been checked to lie within source memory, so
MemRead cannot fault on it (R120, log 15). -/
def blockByte (s : State) (k : Nat) : Byte := Memory.read s.src (s.par.palPtr.toNat + k)

/-- The plain entry of index `i` of the block (R122). -/
def blockPlain (s : State) (i : Nat) : Half :=
  plainEntry (blockByte s (1 + 3 * i)) (blockByte s (2 + 3 * i)) (blockByte s (3 + 3 * i))

/-- The tagged entry of index `i` of the block (R123). -/
def blockTagged (s : State) (i : Nat) : Half :=
  taggedEntry s.cfg i (blockByte s (1 + 3 * i)) (blockByte s (2 + 3 * i)) (blockByte s (3 + 3 * i))

/-- One pass: the entries from index `i` on, `left` of them, each read from the block and written to the palette (R120). -/
def palettePass (entry : State → Nat → Half) : Nat → Nat → State → State
  | 0, _, s => s
  | left + 1, i, s => palettePass entry left (i + 1) (issue (.palWrite (entry s i)) s)

/-- The two complete passes after the cursor is set (R120, R124). -/
def convertBlock (s : State) : State :=
  palettePass blockTagged 256 0 (palettePass blockPlain 256 0 (issue .palSetCursor s))

/-- R126: in checked mode the block does not lie inside SRC_LEN. -/
def blockPastLen (s : State) : Bool :=
  s.par.chk && decide (s.par.srcLen.toNat < s.par.palPtr.toNat + palBlockLen)

/-- R120: the block does not lie inside source memory. -/
def blockPastMemory (s : State) : Bool := decide (s.cfg.srcSize < s.par.palPtr.toNat + palBlockLen)

/-- CONVERT_PALETTE (R120), its checks in the order of 60_exceptions.md R204. No command pulls pixels while it runs, so
`raise` changes STATUS.ERR only. -/
def execConvertPalette (s : State) : Result :=
  let t := endPulling (beginCommand s)
  if blockPastLen t = true then stopCommand (.error .unexpectedEof) t
  else if blockPastMemory t = true then stopCommand (.fault .srcRange) t
  else
    match memRead t.par.palPtr.toNat t with
    | .error st => stopCommand st t
    | .ok marker => if marker = palMarker then .next (convertBlock t) else stopCommand (.error .badSignature) t

end Sys2Proof.Machine
end

