-- ==== Sys2Proof/Machine/System.lean ====
section
/-! DEFINITION. NOP (40_command_dispatch.md R101). -/

namespace Sys2Proof.Machine

/-- NOP (R101): nothing beyond the `x[STATUS] <- 0` of R100. -/
def execNop (s : State) : Result := .next (beginCommand s)

end Sys2Proof.Machine
end

