-- ==== Sys2Proof/Machine/Dispatch.lean ====
section
/-! DEFINITION. One arm per constructor of Instr, each one call of the instruction's meaning. -/

namespace Sys2Proof.Machine

def exec (i : Instr) (s : State) : Host.Outcome State Fault Refusal :=
  match i with
  | .nop => Sys2Proof.Machine.execNop s
  | .convertPalette => Sys2Proof.Machine.execConvertPalette s
  | .drawImage => Sys2Proof.Machine.execDrawImage s
  | .drawLine => Sys2Proof.Machine.execDrawLine s
  | .decodePixel => Sys2Proof.Machine.execDecodePixel s
  | .lit00 value => Sys2Proof.Machine.execLit00 value s
  | .lit01 value => Sys2Proof.Machine.execLit01 value s
  | .lit10 value => Sys2Proof.Machine.execLit10 value s
  | .run length fill => Sys2Proof.Machine.execRun length fill s

end Sys2Proof.Machine
end

