-- ==== Sys2Proof/Machine/HostPort.lean ====
section
/-! DEFINITION. What one host transaction does: the dispatch of a command word (40_command_dispatch.md R100), register access
(10_state.md R22), reset (R230), and the host's own use of memory and devices between commands (20_memory.md R61, R64). -/

namespace Sys2Proof.Machine

/-- A host write of `w` to CMD (R100): a reserved word is rejected by name, any other runs its command to completion. -/
def dispatchCommand (w : Word) (s : State) : Result :=
  match decodeCommand w with
  | .ok i => exec i s
  | .error _ => .next (badCommand s)

/-- `WriteReg(n, d)` (10_state.md R22). -/
def writeReg (n : Byte) (d : Word) (s : State) : Result :=
  if n = 0x01#8 then dispatchCommand d s else .next (storeReg n d s)

/-- The host's own sink operation, applied to the device and no part of the block's trace (log 9). -/
def hostDevice (op : SinkOp) (s : State) : State := { s with dev := s.dev.apply s.cfg op }

/-- One host transaction. -/
def runTxn (t : HostTxn) (s : State) : Result :=
  match t with
  | .writeReg n d => writeReg n d s
  | .readReg n => .next { s with readData := readReg n s }
  | .reset => .next (resetBlock s)
  | .loadSrc off b => loadSrc off b s
  | .vramSetCursor a => .next (hostDevice (.vramSetCursor a) s)
  | .vramWrite v => .next (hostDevice (.vramWrite v) s)
  | .vramRead a => .next { s with readData := (s.dev.vramRead s.cfg a).setWidth 32 }
  | .palSetCursor => .next (hostDevice .palSetCursor s)
  | .palWrite v => .next (hostDevice (.palWrite v) s)

/-- The next host transaction; with none pending the block is idle and holds its state (60_exceptions.md R213). -/
def takeTxn (s : State) : Result :=
  match s.inbox with
  | [] => .next s
  | t :: rest => runTxn t { s with inbox := rest }

end Sys2Proof.Machine
end

