-- ==== Sys2Proof/Machine/Step.lean ====
section
/-! DEFINITION. One step: one host transaction, a command running whole within it (00_scope.md R12). -/

namespace Sys2Proof.Machine

/-- A faulted state takes no step, its fault stands (10_state.md R43); an illegal configuration is refused (00_scope.md R6); else the next host
transaction happens. -/
def step (s : State) : Host.Outcome State Fault Refusal :=
  match s.faulted with
  | some c => .fault (faultAt c s)
  | none => if s.cfg.legal = true then takeTxn s else .refused .illegalConfig

/-- The bits of a table row, placed so that the very next step runs that instruction: a 32-bit row is the next write to CMD, a
shorter one the token at SRC_PTR pulled by the DECODE_PIXEL written next (log 1, log 14). -/
def State.withFetchWord (s : State) (nbits w : Nat) : State :=
  if nbits = 32 then placeCommand (BitVec.ofNat 32 w) s
  else placeToken (tableTokenBytes nbits w).1 (tableTokenBytes nbits w).2 s

end Sys2Proof.Machine
end

