-- ==== Sys2Proof/Machine/HostProgram.lean ====
section
/-! DEFINITION. How a host's program and a token stream are written down: the host lines of 30_encoding.md R91, the stream
directives of R92, and the layout of a loaded file (20_memory.md R53, 70_reset_and_hazards.md R232). -/

namespace Sys2Proof.Machine

/-- A line of a host program (R91). -/
inductive HostLine where
  /-- `WR <reg>, <value>`. -/
  | wr (n : Byte) (value : Word)
  /-- `CMD <mnemonic>`, the command given by its word of R82. -/
  | cmd (word : Word)
  /-- `RD <reg>`. -/
  | rd (n : Byte)
  deriving DecidableEq, Repr

/-- The transaction a line stands for; `CMD` is shorthand for a `WR` to CMD (R91). -/
def HostLine.txn : HostLine → HostTxn
  | .wr n value => .writeReg n value
  | .cmd word => .writeReg 0x01#8 word
  | .rd n => .readReg n

/-- A directive of a token stream (R92). -/
inductive Directive where
  | lit (v : Byte)
  | run (n : BitVec 6) (v : Byte)
  | bytes (bs : List Byte)
  | pix (v : Byte)
  | fill (n : Nat) (v : Byte)
  deriving DecidableEq, Repr

/-- The bytes of `.run n, v`: `0xC0 | n`, then `v` (R92). -/
def runBytes (n : BitVec 6) (v : Byte) : List Byte := [0xC0#8 ||| n.setWidth 8, v]

/-- The bytes a directive stands for (R92). -/
def Directive.expand : Directive → List Byte
  | .lit v => [v]
  | .run n v => runBytes n v
  | .bytes bs => bs
  | .pix v => if v.toNat ≤ 0xBF then [v] else runBytes 1#6 v
  | .fill n v =>
    (List.replicate (n / 63) (runBytes 63#6 v)).flatten ++
      (if n % 63 = 0 then [] else runBytes (BitVec.ofNat 6 (n % 63)) v)

/-- The transactions that put a file at offset 0 of source memory, from offset `off` on. -/
def loadFrom (off : Nat) : List Byte → List HostTxn
  | [] => []
  | b :: rest => .loadSrc off b :: loadFrom (off + 1) rest

/-- The host loads a file at offset 0 and writes its size to SRC_LEN (R53). -/
def loadFile (file : List Byte) : List HostTxn :=
  loadFrom 0 file ++ [.writeReg 0x04#8 (BitVec.ofNat 32 file.length)]

end Sys2Proof.Machine
end

