-- ==== Sys2Proof/Safety.lean ====
section
/-! DEFINITION. The terms the claims use: a ready machine, the invariant between steps, the run with its fault mark, what is
observable of a command, and the pure reading of a token stream and of an image. -/

namespace Sys2Proof.Machine

/-- The machine can take a step: no fault mark (10_state.md R43) and a configuration of this hardware (00_scope.md R6). -/
structure State.Ready (s : State) : Prop where
  unfaulted : s.faulted = none
  legal : s.cfg.legal = true

/-- What holds of the state between steps. -/
structure State.Inv (s : State) : Prop where
  /-- R6. -/
  legal : s.cfg.legal = true
  /-- VRAM_BASE has bits [ADDR_W-1:0] only (10_state.md R21). -/
  vramBase : s.par.vramBase.toNat < s.cfg.vramWords
  /-- WR_CURSOR is a VRAM word address (20_memory.md R55). -/
  wrCursor : s.dev.wrCursor < s.cfg.vramWords
  /-- The memories are in canonical form and lie inside their spaces (20_memory.md R50). -/
  srcWf : Memory.wf s.src
  srcBelow : Memory.below s.src s.cfg.srcSize
  vramWf : Memory.wf s.dev.vram
  vramBelow : Memory.below s.dev.vram s.cfg.vramWords
  palWf : Memory.wf s.dev.pal
  palBelow : Memory.below s.dev.pal palEntries
  /-- STATUS.ERR codes 5 to 15 are never produced (10_state.md R26). -/
  err : s.err.toNat ≤ 4
  /-- RUN_CNT is 0 to 62 (10_state.md R38). -/
  runCnt : s.runCnt.toNat ≤ 62
  /-- Between commands PEND_VALID = 0 always (10_state.md R39). -/
  pendValid : s.pendValid = false
  /-- Nobody pulls between commands (log 2). -/
  puller : s.puller = .idle
  pulled : s.pulled = none

/-- A run's next state (10_state.md R43): a step that faults leaves the faulted state, which is marked, and a marked or refused state
stays as it is (log 5). -/
def advance (s : State) : State :=
  match step s with
  | .next t => t
  | .fault f => f.state
  | .refused _ => s

/-- What is observable of a command (00_scope.md R9): the registers 0x00 to 0x12 as read, and the trace. -/
structure Observation where
  registers : List Word
  trace : List SinkOp
  deriving DecidableEq, Repr

/-- The observation of a state after a command. -/
def observe (s : State) : Observation :=
  { registers := (List.range 0x13).map fun n => readReg (BitVec.ofNat 8 n) s, trace := s.trace }

/-- The devices after the operations of a trace, applied in order (00_scope.md R9). -/
def replay (c : Config) (ops : List SinkOp) (d : Devices) : Devices := ops.foldl (fun e op => e.apply c op) d

/-- Every VramRead of the trace returned what the device held at that point (20_memory.md R60). -/
def readsRight (c : Config) : List SinkOp → Devices → Prop
  | [], _ => True
  | op :: rest, d =>
    (match op with
      | .vramRead a v => v = d.vramRead c a
      | .vramSetCursor _ => True
      | .vramWrite _ => True
      | .palSetCursor => True
      | .palWrite _ => True) ∧ readsRight c rest (d.apply c op)

/-! ### Token streams and images, as pure data -/

/-- The pixels a token yields (42_rle_decoder.md R141, R142); a command yields none. -/
def tokenPixels : Instr → List Byte
  | .nop => []
  | .convertPalette => []
  | .drawImage => []
  | .drawLine => []
  | .decodePixel => []
  | .lit00 v => [v]
  | .lit01 v => [v]
  | .lit10 v => [v]
  | .run n v => List.replicate n.toNat v

/-- The pixels of a list of tokens. -/
def streamPixels (ts : List Instr) : List Byte := ts.flatMap tokenPixels

/-- The bytes of a list of tokens. -/
def streamBytes (ts : List Instr) : List Byte := ts.flatMap tokenBytes

/-- Every one is a well-formed token. -/
def AllTokens (ts : List Instr) : Prop := ∀ i ∈ ts, i.isToken = true ∧ i.wellFormed = true

/-- The offset `off` can be read in the current mode: below SRC_SIZE, and in checked mode below SRC_LEN (20_memory.md R52). -/
def Readable (s : State) (off : Nat) : Prop :=
  off < s.cfg.srcSize ∧ (s.par.chk = true → off < s.par.srcLen.toNat)

/-- From SRC_PTR on source memory holds these bytes, all readable in the current mode. -/
def SourceHolds (s : State) (bs : List Byte) : Prop :=
  ∀ k, ∀ h : k < bs.length, Readable s (s.srcPtr.toNat + k) ∧ Memory.read s.src (s.srcPtr.toNat + k) = bs[k]

/-- The packed words of a scanline: pixels in pairs, the first the high byte, an odd last pixel dropped
(43_pixel_pair_packer.md R162, R163). -/
def pairWords : List Byte → List Half
  | p0 :: p1 :: rest => packedWord p0 p1 :: pairWords rest
  | [_] => []
  | [] => []

/-- The sink operations of one scanline: the cursor, then its words (43_pixel_pair_packer.md R168). -/
def scanlineOps (c : Config) (p : Params) (y : Nat) (pixels : List Byte) : List SinkOp :=
  .vramSetCursor (rowStart c p y) :: (pairWords pixels).map .vramWrite

/-- The trace of an image, scanline after scanline from scanline `y` on. -/
def imageOps (c : Config) (p : Params) : Nat → List (List Byte) → List SinkOp
  | _, [] => []
  | y, row :: rest => scanlineOps c p y row ++ imageOps c p (y + 1) rest

/-- A scanline of tokens for an image of this width: they yield exactly `width` pixels and do not end in a zero-length run
(which the next pull would read, 42_rle_decoder.md R144). -/
def ScanlineTokens (width : Nat) (ts : List Instr) : Prop :=
  AllTokens ts ∧ (streamPixels ts).length = width ∧ ∀ v, ts.getLast? ≠ some (.run 0#6 v)

/-- The bytes of these complete scanlines and of these tokens of the next one stand at SRC_PTR: DRAW_IMAGE draws them and then pulls
the token after them, in scanline `rows.length`. -/
structure ImageReaches (s : State) (rows : List (List Instr)) (ts : List Instr) : Prop where
  inside : rows.length < s.par.height.toNat
  complete : ∀ row ∈ rows, ScanlineTokens s.par.width.toNat row
  tokens : AllTokens ts
  partly : (streamPixels ts).length < s.par.width.toNat
  holds : SourceHolds s (streamBytes (rows.flatten ++ ts))

/-- The offset of the token after them. -/
def reachedOffset (s : State) (rows : List (List Instr)) (ts : List Instr) : Nat :=
  s.srcPtr.toNat + (streamBytes (rows.flatten ++ ts)).length

/-- The sink operations issued before that token is pulled. -/
def reachedTrace (s : State) (rows : List (List Instr)) (ts : List Instr) : List SinkOp :=
  imageOps s.cfg s.par 0 (rows.map streamPixels) ++ scanlineOps s.cfg s.par rows.length (streamPixels ts)

/-- In checked mode a byte of the token at `off`, its first or a run header's fill byte, lies at or beyond SRC_LEN, and no check
before it stops the fetch (42_rle_decoder.md R145, 60_exceptions.md R204). -/
abbrev TokenPastLen (s : State) (off : Nat) : Prop :=
  s.par.chk = true ∧ (s.par.srcLen.toNat ≤ off ∨
    (s.par.srcLen.toNat = off + 1 ∧ off < s.cfg.srcSize ∧ isRunHeader (Memory.read s.src off) = true))

/-- A byte of the token at `off` lies at or beyond SRC_SIZE, and no check before it stops the fetch (20_memory.md R51, R204). -/
abbrev TokenPastMemory (s : State) (off : Nat) : Prop :=
  (s.cfg.srcSize ≤ off ∧ (s.par.chk = true → off < s.par.srcLen.toNat)) ∨
  (s.cfg.srcSize = off + 1 ∧ (s.par.chk = true → off + 1 < s.par.srcLen.toNat) ∧ isRunHeader (Memory.read s.src off) = true)

/-- The same outcome with its state changed, the faulted state of a fault too. -/
def mapStates (f : State → State) (r : Result) : Result :=
  match r with
  | .next t => .next (f t)
  | .fault x => .fault (faultAt x.cause (f x.state))
  | .refused x => .refused x

/-- `k` DECODE_PIXEL commands, one after the other. -/
def decodeTimes : Nat → State → Result
  | 0, s => .next s
  | k + 1, s => andThen (exec .decodePixel s) (decodeTimes k)

end Sys2Proof.Machine
end

