-- ==== Sys2Proof/Certificates/Slice0/Obligations.lean ====
section
/-! DEFINITION. The statements for the provers. Each docstring names the rules of spec/ it formalises. -/

open Sys2Proof Sys2Proof.Machine

/-! ### Encoding -/

/-- 30_encoding.md R82, R84, R85: decoding an encoded well-formed instruction gives it back, and whatever decodes is well formed
and encodes to exactly those bits: no bit of a command word or token is dropped, and no two encodings share an instruction. -/
def Obligations.DecodeEncodeAgree : Prop :=
  (∀ i : Instr, i.wellFormed = true → decode (encode i) = .ok i) ∧
  (∀ (e : Encoding) (i : Instr), decode e = .ok i → i.wellFormed = true ∧ encode i = e)

/-- 30_encoding.md R82: a command word selects a command exactly when w[31:4] = 0 and w[3:0] is one of 0 to 4, and which. -/
def Obligations.OpcodeMapSelectsCommands : Prop :=
  ∀ (w : Word) (i : Instr), decodeCommand w = .ok i ↔
    w.toNat / 16 = 0 ∧
      ((w.toNat % 16 = 0x0 ∧ i = .nop) ∨ (w.toNat % 16 = 0x1 ∧ i = .convertPalette) ∨
       (w.toNat % 16 = 0x2 ∧ i = .drawImage) ∨ (w.toNat % 16 = 0x3 ∧ i = .drawLine) ∨
       (w.toNat % 16 = 0x4 ∧ i = .decodePixel))

/-- 30_encoding.md R84, R85, R93: with the source's masks. `b & 0xC0 == 0xC0` makes a RUN of length `b & 0x3F` and the next byte
its fill value, two bytes long; any other byte is a literal whose pixel is the byte, one byte long. -/
def Obligations.TokenFormsByMask : Prop :=
  ∀ (b v : Byte) (rest : List Byte),
    (b &&& 0xC0#8 = 0xC0#8 → tokenLength b = 2 ∧
      ∃ n : BitVec 6, n.setWidth 8 = b &&& 0x3F#8 ∧ decodeToken (b :: v :: rest) = .ok (.run n v, rest)) ∧
    (b &&& 0xC0#8 ≠ 0xC0#8 → tokenLength b = 1 ∧ b.toNat ≤ 191 ∧
      ∃ i : Instr, tokenPixels i = [b] ∧ (i = .lit00 b ∨ i = .lit01 b ∨ i = .lit10 b) ∧
        decodeToken (b :: rest) = .ok (i, rest))

/-- Words written out from R82 and R84: one for each family. A sanity statement. -/
def Obligations.SampleWordsDecode : Prop :=
  decodeTableWord 32 0b00000000000000000000000000000000 = some .nop ∧
  decodeTableWord 32 0b00000000000000000000000000000001 = some .convertPalette ∧
  decodeTableWord 32 0b00000000000000000000000000000010 = some .drawImage ∧
  decodeTableWord 32 0b00000000000000000000000000000011 = some .drawLine ∧
  decodeTableWord 32 0b00000000000000000000000000000100 = some .decodePixel ∧
  decodeTableWord 8 0b00101010 = some (.lit00 0x2A#8) ∧
  decodeTableWord 8 0b01000000 = some (.lit01 0x40#8) ∧
  decodeTableWord 8 0b10111111 = some (.lit10 0xBF#8) ∧
  decodeTableWord 16 0b1100001100000101 = some (.run 3#6 0x05#8)

/-- 30_encoding.md R92: `.pix v` is one token yielding v for every byte v, and `.fill n v` is a stream of well-formed tokens
yielding exactly n copies of v. -/
def Obligations.DirectivesYieldTheirPixels : Prop :=
  (∀ v : Byte, ∃ i : Instr, i.isToken = true ∧ i.wellFormed = true ∧ (Directive.pix v).expand = tokenBytes i ∧
    tokenPixels i = [v]) ∧
  (∀ (n : Nat) (v : Byte), ∃ ts : List Instr, AllTokens ts ∧ (Directive.fill n v).expand = streamBytes ts ∧
    streamPixels ts = List.replicate n v)

/-! ### Reset, registers and host transactions -/

/-- 70_reset_and_hazards.md R230, a reset of a machine in use being a host transaction (log 11): reset sets every register to
its reset value (CTRL = 1, every other register 0), the hidden state to 0, clears the fault mark, and touches neither device nor
source memory; it issues no sink operation. -/
def Obligations.ResetSetsRegistersOnly : Prop :=
  (∀ n : Byte, readReg n State.reset = if n = 0x00#8 then 1#32 else 0#32) ∧
  ∀ (s : State) (rest : List HostTxn), s.Ready → s.inbox = .reset :: rest → ∃ t, step s = .next t ∧
    (∀ n : Byte, readReg n t = if n = 0x00#8 then 1#32 else 0#32) ∧
    t.runCnt = 0#6 ∧ t.runVal = 0#8 ∧ t.pendValid = false ∧ t.pendByte = 0#8 ∧ t.faulted = none ∧
    t.dev = s.dev ∧ t.src = s.src ∧ t.cfg = s.cfg ∧ t.trace = [] ∧ t.inbox = rest

/-- An inference 70_reset_and_hazards.md marks as its own (from R230 and R52: "in checked mode with SRC_LEN = 0, so any
DECODE_PIXEL, any DRAW_IMAGE that pulls a pixel, and any CONVERT_PALETTE raises UNEXPECTED_EOF"): after reset each of the three
reports code 2, whatever the memories hold. -/
def Obligations.CommandsAfterResetReportEof : Prop :=
  ∀ (s : State) (w h : Half), s.cfg.legal = true → w ≠ 0#16 → h ≠ 0#16 →
    (∃ t, exec .decodePixel (resetBlock s) = .next t ∧ t.err = 2#4 ∧ t.pixelValid = false) ∧
    (∃ t, exec .convertPalette (resetBlock s) = .next t ∧ t.err = 2#4 ∧ t.trace = []) ∧
    (∃ t, exec .drawImage { resetBlock s with par := { Params.reset with width := w, height := h } } = .next t ∧
      t.err = 2#4 ∧ t.dev.vram = s.dev.vram)

/-- 10_state.md R21, R22: a host write of a read-write register followed by a host read gives back the written value with every
unimplemented bit cleared. The list is the read-write registers of R21 with their implemented bits. -/
def Obligations.RegisterReadsBackImplementedBits : Prop :=
  ∀ (s : State) (n : Byte) (d bits : Word) (rest : List HostTxn), s.Ready →
    (n, bits) ∈ [(0x00#8, 1#32), (0x03#8, 0xFFFFFFFF#32), (0x04#8, 0xFFFFFFFF#32), (0x05#8, 0xFFFFFFFF#32),
      (0x06#8, BitVec.ofNat 32 (2 ^ s.cfg.addrW - 1)), (0x07#8, 0xFFFF#32), (0x08#8, 0xFFFF#32), (0x09#8, 0xFFFF#32),
      (0x0A#8, 0xFFFF#32), (0x0B#8, 0xFFFF#32), (0x0C#8, 0xFFFF#32), (0x0D#8, 0xFFFF#32), (0x0E#8, 0xFFFF#32),
      (0x0F#8, 0xFFFF#32), (0x10#8, 0xFF#32)] →
    s.inbox = .writeReg n d :: .readReg n :: rest →
    ∃ t u, step s = .next t ∧ step t = .next u ∧ u.readData = d &&& bits

/-- 10_state.md R23, and the read-only registers of R22: a write of STATUS, PIXEL, DEC_STATE or a reserved number 0x13 to 0xFF
changes nothing, and a reserved number (and CMD) reads 0. -/
def Obligations.ReadOnlyAndReservedIgnoreWrites : Prop :=
  ∀ (s : State) (n : Byte) (d : Word) (rest : List HostTxn), s.Ready →
    ((n = 0x02#8 ∨ n = 0x11#8 ∨ n = 0x12#8 ∨ 0x13 ≤ n.toNat) → s.inbox = .writeReg n d :: rest →
      step s = .next { s with inbox := rest }) ∧
    ((n = 0x01#8 ∨ 0x13 ≤ n.toNat) → s.inbox = .readReg n :: rest →
      step s = .next { s with inbox := rest, readData := 0#32 })

/-- 10_state.md R22, R27, R38: a host write of a register other than CMD changes no other register, no device, no memory; only a
write of SRC_PTR touches the decoder state (seen also in DEC_STATE, 0x12), which it clears. -/
def Obligations.RegisterWriteChangesOnlyThatRegister : Prop :=
  ∀ (s : State) (n : Byte) (d : Word) (rest : List HostTxn), s.Ready → n ≠ 0x01#8 → s.inbox = .writeReg n d :: rest →
    ∃ t, step s = .next t ∧
      (∀ m : Byte, m ≠ n → ¬(n = 0x03#8 ∧ m = 0x12#8) → readReg m t = readReg m s) ∧
      (n = 0x03#8 → t.srcPtr = d ∧ t.runCnt = 0#6 ∧ t.runVal = 0#8) ∧
      (n ≠ 0x03#8 → t.runCnt = s.runCnt ∧ t.runVal = s.runVal) ∧
      t.pendValid = s.pendValid ∧ t.pendByte = s.pendByte ∧ t.src = s.src ∧ t.dev = s.dev ∧ t.cfg = s.cfg ∧
      t.faulted = none ∧ t.readData = s.readData ∧ t.trace = s.trace ∧ t.inbox = rest

/-- An inference 70_reset_and_hazards.md marks as its own (from R22 and R27: "Any order of the register writes within one step
gives the same result, because no register write other than SRC_PTR's has a side effect"). The numbers differ and neither is
CMD. -/
def Obligations.RegisterWritesCommute : Prop :=
  ∀ (s : State) (n m : Byte) (d e : Word), n ≠ m → n ≠ 0x01#8 → m ≠ 0x01#8 →
    andThen (writeReg n d s) (writeReg m e) = andThen (writeReg m e s) (writeReg n d)

/-- 10_state.md R22, 60_exceptions.md R213: a host read has no side effect, it only delivers the register's value (the model's
readData, log 4); and with no host transaction pending the block is idle and holds its state. -/
def Obligations.ReadsAndIdleStepsChangeNothing : Prop :=
  ∀ s : State, s.Ready →
    (∀ (n : Byte) (rest : List HostTxn), s.inbox = .readReg n :: rest →
      step s = .next { s with inbox := rest, readData := readReg n s }) ∧
    (s.inbox = [] → step s = .next s)

/-- 20_memory.md R64: a byte the host puts into source memory between commands is seen by every later read, and no other byte
changes. That it is a transaction of its own is the model's choice (log 10). -/
def Obligations.HostLoadIsSeenByLaterReads : Prop :=
  ∀ (s : State) (off : Nat) (b : Byte) (rest : List HostTxn), s.Ready → Memory.wf s.src → off < s.cfg.srcSize →
    s.inbox = .loadSrc off b :: rest → ∃ t, step s = .next t ∧
      memRead off t = .ok b ∧ (∀ a, a ≠ off → memRead a t = memRead a s) ∧ Memory.wf t.src ∧
      t = { s with inbox := rest, src := t.src }

/-- 20_memory.md R53: loading a file at offset 0 leaves its bytes at offsets 0 on and its size in SRC_LEN, and nothing else of the
block changes. That the host does it by these transactions is the model's choice (log 10). -/
def Obligations.LoadFilePutsBytesAndLength : Prop :=
  ∀ (s : State) (file : List Byte), s.Ready → Memory.wf s.src → file.length ≤ s.cfg.srcSize → s.inbox = loadFile file →
    ∃ t, Host.Core.run core (file.length + 1) s = .next t ∧
      t.par.srcLen.toNat = file.length ∧ (∀ k, ∀ h : k < file.length, Memory.read t.src k = file[k]) ∧
      (∀ a, file.length ≤ a → Memory.read t.src a = Memory.read s.src a) ∧
      t = { s with inbox := [], src := t.src, par := { s.par with srcLen := t.par.srcLen } }

/-- 20_memory.md R61, 70_reset_and_hazards.md R236: between commands the host uses the devices through the same operations; such a
use is no part of the block's trace and changes no state of the block. The model's choice (log 9). -/
def Obligations.HostDeviceUseLeavesTheBlock : Prop :=
  ∀ (s : State) (a : Nat) (v : Half) (rest : List HostTxn), s.Ready →
    (s.inbox = .vramSetCursor a :: rest →
      step s = .next { s with inbox := rest, dev := { s.dev with wrCursor := a % 2 ^ s.cfg.addrW } }) ∧
    (s.inbox = .vramWrite v :: rest →
      step s = .next { s with
        inbox := rest
        dev := { s.dev with
          vram := Memory.write s.dev.vram s.dev.wrCursor v
          wrCursor := (s.dev.wrCursor + 1) % 2 ^ s.cfg.addrW } }) ∧
    (s.inbox = .vramRead a :: rest →
      step s = .next { s with
        inbox := rest
        readData := (Memory.read s.dev.vram (a % 2 ^ s.cfg.addrW)).setWidth 32 }) ∧
    (s.inbox = .palSetCursor :: rest →
      step s = .next { s with inbox := rest, dev := { s.dev with palCursor := 0#9 } }) ∧
    (s.inbox = .palWrite v :: rest →
      step s = .next { s with
        inbox := rest
        dev := { s.dev with
          pal := Memory.write s.dev.pal s.dev.palCursor.toNat v
          palCursor := s.dev.palCursor + 1#9 } })

/-- 10_state.md R43, 60_exceptions.md R203, as the model reads them (log 5): a step that faults leaves the faulted state, which
carries the mark with the fault's reason; the mark is false at reset and never cleared once set, and a faulted state takes no
further step. -/
def Obligations.FaultMarkIsNeverCleared : Prop :=
  State.reset.faulted = none ∧
  (∀ (s : State) (f : Fault), s.faulted = none → step s = .fault f →
    advance s = f.state ∧ (advance s).faulted = some f.cause) ∧
  (∀ (s : State) (c : FaultCause), s.faulted = some c → step s = .fault (faultAt c s) ∧ ∀ k : Nat, (advance^[k]) s = s)

/-- 00_scope.md R6: a configuration with TAG & 0x0FFF ≠ 0 or TRANSPARENT_INDEX > 255 is refused by the model. That one with
SRC_SIZE outside the range of R6's table is refused too is the model's reading (log 8). A legal configuration, such as the
standard one, is never refused as illegal. -/
def Obligations.IllegalConfigurationIsRefused : Prop :=
  (∀ s : State, s.faulted = none →
    (s.cfg.tag &&& 0x0FFF#16 ≠ 0#16 ∨ 255 < s.cfg.transparentIndex ∨ s.cfg.srcSize = 0 ∨ 2 ^ 32 ≤ s.cfg.srcSize) →
    step s = .refused .illegalConfig) ∧
  Config.standard.legal = true ∧
  (∀ s : State, s.cfg.legal = true → step s ≠ .refused .illegalConfig)

/-! ### Dispatch -/

/-- 40_command_dispatch.md R100: when the host writes a command word that decodes to i, the step is exec of i with that
transaction taken from the queue; placed by withFetchWord it is exec of i at the state itself. -/
def Obligations.StepRunsDecodedCommand : Prop :=
  (∀ (s : State) (w : Word) (i : Instr) (rest : List HostTxn), s.Ready → s.inbox = .writeReg 0x01#8 w :: rest →
    decodeCommand w = .ok i → step s = exec i { s with inbox := rest }) ∧
  (∀ (s : State) (w : Nat) (i : Instr), s.Ready → decodeTableWord 32 w = some i → step (s.withFetchWord 32 w) = exec i s)

/-- 40_command_dispatch.md R102, 30_encoding.md R83: a reserved word (w[31:4] ≠ 0, or an opcode 0x5 to 0xF) sets STATUS to
0x00000004 and changes no other register, no hidden state and no device; no sink operation is issued. -/
def Obligations.ReservedWordReportsBadCommand : Prop :=
  ∀ (s : State) (w : Word) (rest : List HostTxn), s.Ready → s.inbox = .writeReg 0x01#8 w :: rest →
    (w.toNat / 16 ≠ 0 ∨ 0x5 ≤ w.toNat % 16) →
    ∃ t, step s = .next t ∧ readReg 0x02#8 t = 0x00000004#32 ∧ t.trace = [] ∧
      t = { s with inbox := rest, err := 4#4, warn := false, sinkLog := [] }

/-- 40_command_dispatch.md R101: NOP, command word 0x00000000, clears STATUS (ERR and WARN) and leaves everything else
unchanged; it issues no sink operation. -/
def Obligations.NopOnlyClearsStatus : Prop :=
  decodeCommand 0x00000000#32 = .ok .nop ∧
  ∀ s : State, ∃ t, exec .nop s = .next t ∧ readReg 0x02#8 t = 0#32 ∧ t.trace = [] ∧
    t = { s with err := 0#4, warn := false, sinkLog := [] }

/-! ### Source memory and tokens -/

/-- 20_memory.md R51, R52: SrcFetch in checked mode raises UNEXPECTED_EOF at or beyond SRC_LEN; otherwise, in either mode, it
faults F_SRC_RANGE at or beyond SRC_SIZE and else returns the byte; in unchecked mode SRC_LEN is ignored. -/
def Obligations.SrcFetchChecksThenReads : Prop :=
  ∀ (s : State) (off : Nat),
    (s.par.chk = true → s.par.srcLen.toNat ≤ off → srcFetch off s = .error (.error .unexpectedEof)) ∧
    ((s.par.chk = false ∨ off < s.par.srcLen.toNat) → s.cfg.srcSize ≤ off → srcFetch off s = .error (.fault .srcRange)) ∧
    ((s.par.chk = false ∨ off < s.par.srcLen.toNat) → off < s.cfg.srcSize → srcFetch off s = .ok (Memory.read s.src off))

/-- 42_rle_decoder.md R141: each LIT form consumes one byte and yields its byte; RUN_CNT and RUN_VAL and everything else are
unchanged. -/
def Obligations.LiteralYieldsItsByte : Prop :=
  ∀ (v : Byte) (s : State),
    exec (.lit00 v) s = .next { s with srcPtr := s.srcPtr + 1#32, pulled := some v } ∧
    exec (.lit01 v) s = .next { s with srcPtr := s.srcPtr + 1#32, pulled := some v } ∧
    exec (.lit10 v) s = .next { s with srcPtr := s.srcPtr + 1#32, pulled := some v }

/-- 42_rle_decoder.md R142, R143, R144: a RUN within the budget (DECODE_PIXEL's is INF) consumes two bytes; of length 0 it yields
nothing, else it yields V and leaves RUN_CNT = N - 1 and RUN_VAL = V; everything else is unchanged. That a RUN run with no command
pulling has no budget is the model's choice (log 20). -/
def Obligations.RunYieldsFillByte : Prop :=
  ∀ (n : BitVec 6) (v : Byte) (s : State), (∀ budget, s.puller = .drawImage budget → n.toNat ≤ budget) →
    (n = 0#6 → exec (.run n v) s = .next { s with srcPtr := s.srcPtr + 2#32 }) ∧
    (n ≠ 0#6 → ∃ t, exec (.run n v) s = .next t ∧ t.runCnt.toNat = n.toNat - 1 ∧
      t = { s with srcPtr := s.srcPtr + 2#32, runCnt := t.runCnt, runVal := v, pulled := some v })

/-- 42_rle_decoder.md R143, 43_pixel_pair_packer.md R164, 60_exceptions.md R203, R205: a RUN longer than DRAW_IMAGE's budget is
not consumed: in checked mode it raises RUN_OVERRUN (code 3, WARN kept, packer and decoder state cleared, the command over), in
unchecked mode it is the fault F_RUN_OVERRUN, the state as it stands with the fault mark set (log 5). -/
def Obligations.RunOverBudgetIsNotConsumed : Prop :=
  ∀ (n : BitVec 6) (v : Byte) (s : State) (budget : Nat), s.puller = .drawImage budget → budget < n.toNat →
    (s.par.chk = true → exec (.run n v) s = .next { s with
      err := 3#4, pendValid := false, runCnt := 0#6, runVal := 0#8, puller := .idle, pulled := none }) ∧
    (s.par.chk = false → exec (.run n v) s = .fault (.runOverrun { s with faulted := some .runOverrun }))

/-- 42_rle_decoder.md R143, R144: NextPixel's loop. Without a run left over, the pull fetches the token at SRC_PTR and runs it by
exec; it is over when the token yields a pixel or ends the command, and goes on with the next token after an empty run. A token
that cannot be fetched stops the command. With a run left over it yields RUN_VAL and reads no source byte. -/
def Obligations.PullRunsFetchedTokens : Prop :=
  ∀ s : State, s.cfg.legal = true → s.puller ≠ .idle →
    (∀ i, s.runCnt = 0#6 → fetchToken { s with pulled := none } = .ok i →
      nextPixel s = andThen (exec i { s with pulled := none })
        fun t => if t.pulled.isSome = true ∨ t.puller = .idle then .next t else nextPixel t) ∧
    (∀ st, s.runCnt = 0#6 → fetchToken { s with pulled := none } = .error st →
      nextPixel s = stopCommand st { s with pulled := none }) ∧
    (s.runCnt ≠ 0#6 → ∃ t, nextPixel s = .next t ∧ t.runCnt.toNat = s.runCnt.toNat - 1 ∧
      t = { s with runCnt := t.runCnt, pulled := some s.runVal })

/-- 42_rle_decoder.md R143: when the bytes at SRC_PTR are those of a well-formed token i, readable in the current mode, the pull
fetches i; and placed by withFetchWord, the next step is a DECODE_PIXEL whose pull fetches exactly that token (log 14). -/
def Obligations.StepPullsTheTokenAtTheCursor : Prop :=
  (∀ (s : State) (i : Instr), i.isToken = true → i.wellFormed = true → SourceHolds s (tokenBytes i) →
    fetchToken s = .ok i) ∧
  (∀ (s : State) (nbits w : Nat) (i : Instr), s.Ready → Memory.wf s.src → s.srcPtr.toNat + 2 ≤ s.cfg.srcSize →
    (nbits = 8 ∨ nbits = 16) → decodeTableWord nbits w = some i →
    ∃ u, fetchToken u = .ok i ∧ u.runCnt = 0#6 ∧ u.pulled = s.pulled ∧ u.puller = .decodePixel ∧ u.srcPtr = s.srcPtr ∧
      u.inbox = s.inbox ∧ u.err = 0#4 ∧ u.warn = false ∧
      step (s.withFetchWord nbits w) = andThen (nextPixel u) fun t => .next (latchPixel t))

/-- 42_rle_decoder.md R141, R142: the frame of the tokens. Whatever exec answers next for a token, the parameter registers,
memories, devices, PIXEL, WARN, the trace and the host's side are unchanged; a literal leaves RUN_CNT and RUN_VAL; STATUS.ERR and
the packer state change only by RUN_OVERRUN. -/
def Obligations.TokenFrame : Prop :=
  ∀ (i : Instr) (s t : State), i.isToken = true → exec i s = .next t →
    t.cfg = s.cfg ∧ t.par = s.par ∧ t.src = s.src ∧ t.dev = s.dev ∧ t.warn = s.warn ∧ t.pixelValid = s.pixelValid ∧
    t.pixelValue = s.pixelValue ∧ t.pendByte = s.pendByte ∧ t.faulted = s.faulted ∧ t.inbox = s.inbox ∧
    t.readData = s.readData ∧ t.trace = s.trace ∧
    ((∀ n v, i ≠ .run n v) → t.runCnt = s.runCnt ∧ t.runVal = s.runVal) ∧
    ((t.err = s.err ∧ t.pendValid = s.pendValid ∧ t.puller = s.puller) ∨
     (t.err = 3#4 ∧ s.par.chk = true ∧ t.srcPtr = s.srcPtr ∧ t.pendValid = false ∧ t.puller = .idle))

/-! ### DECODE_PIXEL -/

/-- 42_rle_decoder.md R147: with a run left over, DECODE_PIXEL reads no source byte and cannot fail: PIXEL takes RUN_VAL, RUN_CNT
drops by one, STATUS is 0, nothing else changes. -/
def Obligations.DecodePixelTakesRestOfRun : Prop :=
  ∀ s : State, s.runCnt ≠ 0#6 → ∃ t, exec .decodePixel s = .next t ∧ t.runCnt.toNat = s.runCnt.toNat - 1 ∧
    t = { s with err := 0#4, warn := false, pixelValid := true, pixelValue := s.runVal, runCnt := t.runCnt, sinkLog := [],
                 puller := .idle, pulled := none }

/-- 42_rle_decoder.md R141, R142, R147: with no run left over and a well-formed token that yields a pixel at SRC_PTR, readable in
the current mode, DECODE_PIXEL puts its pixel into PIXEL with VALID = 1, moves SRC_PTR past the token, and for a RUN leaves
RUN_CNT = N - 1 and RUN_VAL = V; STATUS is 0 and nothing else changes. -/
def Obligations.DecodePixelDecodesOneToken : Prop :=
  ∀ (s : State) (i : Instr) (p : Byte), s.cfg.legal = true → s.runCnt = 0#6 → i.isToken = true → i.wellFormed = true →
    (tokenPixels i).head? = some p → SourceHolds s (tokenBytes i) →
    ∃ t, exec .decodePixel s = .next t ∧
      t.srcPtr.toNat = s.srcPtr.toNat + (tokenBytes i).length ∧
      t.runCnt.toNat = (tokenPixels i).length - 1 ∧
      (∀ n v, i = .run n v → t.runVal = v) ∧ ((∀ n v, i ≠ .run n v) → t.runVal = s.runVal) ∧
      t = { s with err := 0#4, warn := false, pixelValid := true, pixelValue := p, srcPtr := t.srcPtr, runCnt := t.runCnt,
                   runVal := t.runVal, sinkLog := [], puller := .idle, pulled := none }

/-- 42_rle_decoder.md R144: any number of zero-length runs may stand in a row; a pull consumes them and yields no pixel, so
DECODE_PIXEL before z of them behaves as DECODE_PIXEL with SRC_PTR past them, in every outcome. -/
def Obligations.DecodePixelSkipsEmptyRuns : Prop :=
  ∀ (s : State) (fills : List Byte), s.cfg.legal = true → s.runCnt = 0#6 →
    SourceHolds s (fills.flatMap fun v => tokenBytes (.run 0#6 v)) →
    exec .decodePixel s = exec .decodePixel { s with srcPtr := s.srcPtr + BitVec.ofNat 32 (2 * fills.length) }

/-- 42_rle_decoder.md R145, R147, 60_exceptions.md R205: in checked mode, with no run left over, a token byte at or beyond SRC_LEN
(the first byte, or the fill byte of a run header) makes DECODE_PIXEL report UNEXPECTED_EOF: ERR = 2, PIXEL = 0, the token not
consumed, nothing else changed. -/
def Obligations.DecodePixelReportsEof : Prop :=
  ∀ s : State, s.runCnt = 0#6 → TokenPastLen s s.srcPtr.toNat →
    exec .decodePixel s = .next { s with err := 2#4, warn := false, pixelValid := false, pixelValue := 0#8, sinkLog := [],
                                          puller := .idle, pulled := none }

/-- 20_memory.md R51, 42_rle_decoder.md R142, R146, 60_exceptions.md R203, R204: a source read at or beyond SRC_SIZE that
SRC_LEN does not stop first is the fault F_SRC_RANGE, in either mode, whether it is a token's first byte or a run header's fill
byte: the pull of a DECODE_PIXEL (without a run left over), any pull of DRAW_IMAGE, and a palette block that does not lie inside
source memory. The operations issued before the fault are in the trace. -/
def Obligations.ReadsPastSourceMemoryFault : Prop :=
  ∀ s : State,
    (s.runCnt = 0#6 → TokenPastMemory s s.srcPtr.toNat →
      ∃ u, exec .decodePixel s = .fault (.srcRange u) ∧ u.trace = []) ∧
    (∀ (rows : List (List Instr)) (ts : List Instr), s.cfg.legal = true → ImageReaches s rows ts →
      TokenPastMemory s (reachedOffset s rows ts) →
      ∃ u, exec .drawImage s = .fault (.srcRange u) ∧ u.trace = reachedTrace s rows ts) ∧
    (s.cfg.srcSize < s.par.palPtr.toNat + 769 →
      (s.par.chk = true → s.par.palPtr.toNat + 769 ≤ s.par.srcLen.toNat) →
      ∃ u, exec .convertPalette s = .fault (.srcRange u) ∧ u.trace = [])

/-- 42_rle_decoder.md R140, R142, R147, R148: the decoder is a lazy sequence. If source memory holds the bytes of a list of
well-formed tokens from SRC_PTR on and no run is left over, the k-th DECODE_PIXEL puts the k-th pixel of the stream into PIXEL. -/
def Obligations.DecodePixelsYieldTheStream : Prop :=
  ∀ (ts : List Instr) (s : State) (k : Nat) (hk : k < (streamPixels ts).length), s.cfg.legal = true → AllTokens ts →
    s.runCnt = 0#6 → SourceHolds s (streamBytes ts) →
    ∃ t, decodeTimes (k + 1) s = .next t ∧ t.err = 0#4 ∧ t.pixelValid = true ∧ t.pixelValue = (streamPixels ts)[k]

/-- 42_rle_decoder.md R147: the frame of DECODE_PIXEL. VRAM, PAL, the packer state, source memory, the parameter registers and
the host's side are untouched; WARN is 0, ERR is 0 or 2, and PIXEL.VALID is 1 exactly without an error, else PIXEL is 0. -/
def Obligations.DecodePixelFrame : Prop :=
  ∀ s t : State, s.cfg.legal = true → exec .decodePixel s = .next t →
    t.cfg = s.cfg ∧ t.par = s.par ∧ t.src = s.src ∧ t.dev = s.dev ∧ t.pendValid = s.pendValid ∧ t.pendByte = s.pendByte ∧
    t.faulted = s.faulted ∧ t.inbox = s.inbox ∧ t.readData = s.readData ∧ t.trace = [] ∧ t.warn = false ∧
    ((t.err = 0#4 ∧ t.pixelValid = true) ∨ (t.err = 2#4 ∧ s.par.chk = true ∧ t.pixelValid = false ∧ t.pixelValue = 0#8))

/-! ### DRAW_IMAGE -/

/-- 43_pixel_pair_packer.md R160 to R165 and its inference on the trace of a successful DRAW_IMAGE: if source memory holds from
SRC_PTR on the bytes of HEIGHT scanlines of tokens, each yielding exactly WIDTH pixels, DRAW_IMAGE completes with ERR = 0: its
trace is, scanline after scanline, the cursor set to RowStart(y) and the packed words left to right; SRC_PTR is just past the
last token; WARN is 1 exactly when WIDTH is odd and there is a scanline; the decoder state ends at 0 and no pixel stays pending;
every other register and memory is unchanged. -/
def Obligations.DrawImageDrawsItsScanlines : Prop :=
  ∀ (s : State) (rows : List (List Instr)), s.cfg.legal = true → rows.length = s.par.height.toNat →
    (∀ ts ∈ rows, ScanlineTokens s.par.width.toNat ts) → SourceHolds s (streamBytes rows.flatten) →
    ∃ t, exec .drawImage s = .next t ∧
      t.err = 0#4 ∧ t.warn = decide (s.par.width.toNat % 2 = 1 ∧ rows ≠ []) ∧
      t.trace = imageOps s.cfg s.par 0 (rows.map streamPixels) ∧
      t.srcPtr.toNat = s.srcPtr.toNat + (streamBytes rows.flatten).length ∧
      t.runCnt = 0#6 ∧ t.runVal = 0#8 ∧ t.pendValid = false ∧
      t = { s with err := 0#4, warn := t.warn, srcPtr := t.srcPtr, runCnt := 0#6, runVal := 0#8, pendValid := false,
                   pendByte := t.pendByte, dev := t.dev, sinkLog := t.sinkLog, puller := .idle, pulled := none }

/-- An inference 43_pixel_pair_packer.md marks as its own (from R160: "With HEIGHT = 0 DRAW_IMAGE issues no sink operation and
reads no source byte."): with HEIGHT = 0 DRAW_IMAGE issues no sink operation; with WIDTH = 0 one VramSetCursor per scanline. It
reads no source byte (it completes whatever SRC_LEN and SRC_SIZE are), sets no warning, leaves SRC_PTR and ends with the decoder
state at 0. -/
def Obligations.EmptyImageDrawsNothing : Prop :=
  ∀ s : State, s.par.height = 0#16 ∨ s.par.width = 0#16 → ∃ t, exec .drawImage s = .next t ∧
    (s.par.height = 0#16 → t.trace = []) ∧
    (s.par.width = 0#16 →
      t.trace = (List.range s.par.height.toNat).map fun y => SinkOp.vramSetCursor (rowStart s.cfg s.par y)) ∧
    t = { s with err := 0#4, warn := false, runCnt := 0#6, runVal := 0#8, pendValid := false, sinkLog := t.sinkLog,
                 dev := { s.dev with wrCursor := t.dev.wrCursor }, puller := .idle, pulled := none }

/-- 43_pixel_pair_packer.md R163, R164, R169, 42_rle_decoder.md R145, 60_exceptions.md R203: an error or overrun in any
scanline. After any number of complete scanlines and tokens that yield fewer than WIDTH pixels of the next one, a RUN longer
than what is left of the scanline is RUN_OVERRUN in checked mode (SRC_PTR at its header) and the fault F_RUN_OVERRUN in
unchecked mode; a token that reaches SRC_LEN in checked mode (by its first byte, or a run header by its fill byte) is
UNEXPECTED_EOF with SRC_PTR at its first byte. The operations already issued stay, STATUS.WARN is that of the complete
scanlines, and the pending pixel is discarded without a warning. The operations issued before the fault are in the trace. -/
def Obligations.DrawImageStopsAtTheFailingToken : Prop :=
  ∀ (s : State) (rows : List (List Instr)) (ts : List Instr), s.cfg.legal = true → ImageReaches s rows ts →
    let stopped := fun (t : State) (code : BitVec 4) => t.err = code ∧
      t.warn = decide (s.par.width.toNat % 2 = 1 ∧ rows ≠ []) ∧ t.pendValid = false ∧
      t.runCnt = 0#6 ∧ t.runVal = 0#8 ∧ t.srcPtr.toNat = reachedOffset s rows ts ∧ t.trace = reachedTrace s rows ts
    (∀ n v, SourceHolds s (streamBytes (rows.flatten ++ ts ++ [.run n v])) →
      s.par.width.toNat < (streamPixels ts).length + n.toNat →
      (s.par.chk = true → ∃ t, exec .drawImage s = .next t ∧ stopped t 3#4) ∧
      (s.par.chk = false → ∃ u, exec .drawImage s = .fault (.runOverrun u) ∧ u.trace = reachedTrace s rows ts)) ∧
    (TokenPastLen s (reachedOffset s rows ts) → ∃ t, exec .drawImage s = .next t ∧ stopped t 2#4)

/-- 43_pixel_pair_packer.md R169, 60_exceptions.md R201, R205: whenever DRAW_IMAGE ends with an error, it was in checked mode, the
packer and decoder state is 0, and SRC_PTR is at the failing token: one whose bytes reach SRC_LEN (ERR = 2), or a RUN longer than
some budget of a scanline (ERR = 3). Without an error the decoder state is 0 too. -/
def Obligations.DrawImageErrorLeavesSrcPtrAtToken : Prop :=
  ∀ s t : State, s.cfg.legal = true → exec .drawImage s = .next t →
    t.pendValid = false ∧ t.runCnt = 0#6 ∧ t.runVal = 0#8 ∧ (t.err = 0#4 ∨ t.err = 2#4 ∨ t.err = 3#4) ∧
    (t.err ≠ 0#4 → s.par.chk = true) ∧
    (t.err = 2#4 → fetchToken t = .error (.error .unexpectedEof)) ∧
    (t.err = 3#4 → ∃ n v budget, fetchToken t = .ok (.run n v) ∧ 1 ≤ budget ∧ budget ≤ s.par.width.toNat ∧ budget < n.toNat)

/-- 43_pixel_pair_packer.md R160, R161, R168: the frame of DRAW_IMAGE. PAL, PIXEL, source memory, the parameter registers and the
host's side are untouched, and every VRAM word outside the image's words (RowStart(y) + k mod 2^ADDR_W, y below HEIGHT, k below
WIDTH/2) reads as before. -/
def Obligations.DrawImageFrame : Prop :=
  ∀ s t : State, s.cfg.legal = true → exec .drawImage s = .next t →
    t.cfg = s.cfg ∧ t.par = s.par ∧ t.src = s.src ∧ t.dev.pal = s.dev.pal ∧ t.dev.palCursor = s.dev.palCursor ∧
    t.pixelValid = s.pixelValid ∧ t.pixelValue = s.pixelValue ∧ t.faulted = s.faulted ∧ t.inbox = s.inbox ∧
    t.readData = s.readData ∧
    ∀ a : Nat, (∀ y k, y < s.par.height.toNat → k < s.par.width.toNat / 2 →
        a ≠ (rowStart s.cfg s.par y + k) % 2 ^ s.cfg.addrW) →
      Memory.read t.dev.vram a = Memory.read s.dev.vram a

/-! ### DRAW_LINE -/

/-- 44_line_rasterizer.md R180, R184, R189: DRAW_LINE always completes with STATUS 0; for each point of the line in order it
issues VramRead, VramSetCursor and VramWrite at the point's address; X0 to COLOR, SRC_PTR, the decoder state, PIXEL, PAL and
everything else of the block are unchanged. -/
def Obligations.DrawLinePlotsItsPoints : Prop :=
  ∀ s : State, ∃ t, exec .drawLine s = .next t ∧
    t.trace.length = 3 * (linePoints s.par).length ∧
    (∀ j x y, (linePoints s.par)[j]? = some (x, y) → ∃ w,
      t.trace[3 * j]? = some (.vramRead (plotAddr s.cfg s.par x y) w) ∧
      t.trace[3 * j + 1]? = some (.vramSetCursor (plotAddr s.cfg s.par x y)) ∧
      t.trace[3 * j + 2]? = some (.vramWrite (plotWord x s.par.color w))) ∧
    t = { s with err := 0#4, warn := false, sinkLog := t.sinkLog,
                 dev := { s.dev with vram := t.dev.vram, wrCursor := t.dev.wrCursor } }

/-- 44_line_rasterizer.md R184, R185, R186: what DRAW_LINE does to VRAM. The pixel byte of an address (high byte: even columns,
low byte: odd columns) becomes COLOR exactly when the line has a point of that byte; every other byte of VRAM is unchanged. -/
def Obligations.DrawLineColoursExactlyItsPixels : Prop :=
  ∀ s t : State, s.cfg.legal = true → Memory.wf s.dev.vram → exec .drawLine s = .next t → ∀ a : Nat,
    ((∃ x y, (x, y) ∈ linePoints s.par ∧ x % 2 = 0 ∧ plotAddr s.cfg s.par x y = a) →
      (Memory.read t.dev.vram a).extractLsb' 8 8 = s.par.color) ∧
    ((∃ x y, (x, y) ∈ linePoints s.par ∧ x % 2 = 1 ∧ plotAddr s.cfg s.par x y = a) →
      (Memory.read t.dev.vram a).extractLsb' 0 8 = s.par.color) ∧
    ((∀ x y, (x, y) ∈ linePoints s.par → x % 2 = 0 → plotAddr s.cfg s.par x y ≠ a) →
      (Memory.read t.dev.vram a).extractLsb' 8 8 = (Memory.read s.dev.vram a).extractLsb' 8 8) ∧
    ((∀ x y, (x, y) ∈ linePoints s.par → x % 2 = 1 → plotAddr s.cfg s.par x y ≠ a) →
      (Memory.read t.dev.vram a).extractLsb' 0 8 = (Memory.read s.dev.vram a).extractLsb' 0 8)

/-- 44_line_rasterizer.md R184: Plot reads the word at PlotAddr, sets the cursor, writes back: the pixel's byte becomes the
colour, the word's other byte and every other word keep their value; exactly three sink operations in this order. -/
def Obligations.PlotReplacesOnePixelByte : Prop :=
  ∀ (s : State) (c : Byte) (x y : Nat), Memory.wf s.dev.vram →
    let a := plotAddr s.cfg s.par x y
    let w := Memory.read s.dev.vram a
    let w' : Half := if x % 2 = 0 then c ++ w.extractLsb' 0 8 else w.extractLsb' 8 8 ++ c
    let t := plot c (x, y) s
    t.trace = s.trace ++ [.vramRead a w, .vramSetCursor a, .vramWrite w'] ∧
    Memory.read t.dev.vram a = w' ∧ (∀ b, b ≠ a → Memory.read t.dev.vram b = Memory.read s.dev.vram b) ∧
    t.dev.wrCursor = (a + 1) % 2 ^ s.cfg.addrW ∧ t.dev.pal = s.dev.pal ∧ t.dev.palCursor = s.dev.palCursor

/-- 44_line_rasterizer.md R180 to R183: the line. dx, dy, sx, sy are those of R181; the walk starts at (X0, Y0) with err = dx +
dy; each next position comes from the last by e2 = 2 * err, the x step if e2 >= dy, the y step if e2 <= dx, both against the
same e2; the last position is the end point and no earlier one is. -/
def Obligations.LineFollowsBresenhamSteps : Prop :=
  ∀ p : Params,
    let x0 : Int := p.x0.toNat
    let y0 : Int := p.y0.toNat
    let x1 : Int := p.x1.toNat
    let y1 : Int := p.y1.toNat
    let dx : Int := |x1 - x0|
    let dy : Int := -|y1 - y0|
    let sx : Int := if x1 > x0 then 1 else if x1 < x0 then -1 else 0
    let sy : Int := if y1 > y0 then 1 else if y1 < y0 then -1 else 0
    let q := linePositions p
    (q.head? = some { x := x0, y := y0, err := dx + dy }) ∧
    (∀ (j : Nat) (a b : LinePos), q[j]? = some a → q[j + 1]? = some b →
      b.err = a.err + (if 2 * a.err ≥ dy then dy else 0) + (if 2 * a.err ≤ dx then dx else 0) ∧
      b.x = a.x + (if 2 * a.err ≥ dy then sx else 0) ∧ b.y = a.y + (if 2 * a.err ≤ dx then sy else 0)) ∧
    (∀ a, q.getLast? = some a → a.x = x1 ∧ a.y = y1) ∧
    (∀ a ∈ q.dropLast, ¬(a.x = x1 ∧ a.y = y1))

/-- A claim 44_line_rasterizer.md marks as not from its source ("DRAW_LINE plots exactly `max(dx, -dy) + 1` points, every point
distinct, and issues `3 * (max(dx, -dy) + 1)` sink operations"), a consequence of R180 to R183. -/
def Obligations.LinePointCountIsMaxPlusOne : Prop :=
  ∀ s t : State, exec .drawLine s = .next t →
    let dx := ((s.par.x1.toNat : Int) - s.par.x0.toNat).natAbs
    let dy := ((s.par.y1.toNat : Int) - s.par.y0.toNat).natAbs
    (linePoints s.par).length = max dx dy + 1 ∧ (linePoints s.par).Nodup ∧ t.trace.length = 3 * (max dx dy + 1)

/-- Claims 44_line_rasterizer.md marks as inferred or not from its source (the rectangle, and "Every value `err` and `e2` takes
lies strictly within -2^18 to 2^18"), consequences of R180 to R183: every plotted point lies in the rectangle spanned by the end
points, and every value of err, the one between the x step and the y step too, and of e2 lies strictly within -2^18 to 2^18. -/
def Obligations.LineStaysInRectangle : Prop :=
  ∀ (p : Params) (a : LinePos), a ∈ linePositions p →
    let l := lineSetup p.x0.toNat p.y0.toNat p.x1.toNat p.y1.toNat
    let e2 := 2 * a.err
    ((min p.x0.toNat p.x1.toNat : Nat) : Int) ≤ a.x ∧ a.x ≤ ((max p.x0.toNat p.x1.toNat : Nat) : Int) ∧
    ((min p.y0.toNat p.y1.toNat : Nat) : Int) ≤ a.y ∧ a.y ≤ ((max p.y0.toNat p.y1.toNat : Nat) : Int) ∧
    -2 ^ 18 < a.err ∧ a.err < 2 ^ 18 ∧ -2 ^ 18 < e2 ∧ e2 < 2 ^ 18 ∧
    -2 ^ 18 < (stepX l e2 a).err ∧ (stepX l e2 a).err < 2 ^ 18

/-- An inference 44_line_rasterizer.md marks as its own (from R181 and R182: "The value of `sx` when `dx = 0`, and of `sy` when
`dy = 0`, never matters"): with any other value in its place the walk is the same, however long, because err keeps the other
axis's value all along. The model's value is 0, the mathematical sign. -/
def Obligations.SignOfZeroNeverMatters : Prop :=
  ∀ (x0 y0 x1 y1 k : Int) (fuel : Nat),
    let l := lineSetup x0 y0 x1 y1
    let walk := lineWalk l fuel (lineStart x0 y0 l)
    (x1 = x0 → l.sx = 0 ∧ (∀ p ∈ walk, p.err = l.dy) ∧ lineWalk { l with sx := k } fuel (lineStart x0 y0 l) = walk) ∧
    (y1 = y0 → l.sy = 0 ∧ (∀ p ∈ walk, p.err = l.dx) ∧ lineWalk { l with sy := k } fuel (lineStart x0 y0 l) = walk)

/-! ### CONVERT_PALETTE -/

/-- 30_encoding.md R88, 41_palette_converter.md R121, R122, R123: the entry formats as numbers. A channel keeps its high nibble;
the plain entry is R, G, B nibbles in bits [11:0] under 0; a tagged entry is 0 at the transparent index and else the plain entry
with TAG's bits [15:12] on top. -/
def Obligations.PaletteEntryFormats : Prop :=
  ∀ (c : Config) (i : Nat) (r g b : Byte), c.legal = true →
    (plainEntry r g b).toNat = r.toNat / 16 * 256 + g.toNat / 16 * 16 + b.toNat / 16 ∧
    (i = c.transparentIndex → taggedEntry c i r g b = 0#16) ∧
    (i ≠ c.transparentIndex → (taggedEntry c i r g b).toNat = c.tag.toNat + (plainEntry r g b).toNat)

/-- 41_palette_converter.md R120, R122, R123, R124: with the block inside source memory (and inside SRC_LEN in checked mode) and
its byte 0 the marker 0x0C, CONVERT_PALETTE completes with STATUS 0: PAL[i] and PAL[256 + i] are the plain and tagged entries of
entry i for every i whatever PAL held before (R122 and R123 name the positions), PAL_CURSOR is 0, the trace is the cursor, the
256 plain and the 256 tagged entries in ascending order, and nothing else changes. -/
def Obligations.ConvertPaletteWritesBothBanks : Prop :=
  ∀ s : State, s.cfg.legal = true → Memory.wf s.dev.pal → s.par.palPtr.toNat + 769 ≤ s.cfg.srcSize →
    (s.par.chk = true → s.par.palPtr.toNat + 769 ≤ s.par.srcLen.toNat) →
    Memory.read s.src s.par.palPtr.toNat = 0x0C#8 →
    let channel := fun k => Memory.read s.src (s.par.palPtr.toNat + k)
    let plain := fun i => plainEntry (channel (1 + 3 * i)) (channel (2 + 3 * i)) (channel (3 + 3 * i))
    let tagged := fun i => taggedEntry s.cfg i (channel (1 + 3 * i)) (channel (2 + 3 * i)) (channel (3 + 3 * i))
    ∃ t, exec .convertPalette s = .next t ∧
      (∀ i, i < 256 → Memory.read t.dev.pal i = plain i ∧ Memory.read t.dev.pal (256 + i) = tagged i) ∧
      t.dev.palCursor = 0#9 ∧
      t.trace = .palSetCursor :: ((List.range 256).map fun i => .palWrite (plain i)) ++
        ((List.range 256).map fun i => .palWrite (tagged i)) ∧
      t = { s with err := 0#4, warn := false, dev := { s.dev with pal := t.dev.pal, palCursor := t.dev.palCursor },
                   sinkLog := t.sinkLog, puller := .idle, pulled := none }

/-- 41_palette_converter.md R125: when the byte at PAL_PTR is not 0x0C, CONVERT_PALETTE raises BAD_SIGNATURE (code 1) and issues
no sink operation, not even PalSetCursor; PAL and PAL_CURSOR are unchanged, and so is everything else. -/
def Obligations.BadSignatureWritesNothing : Prop :=
  ∀ s : State, s.par.palPtr.toNat + 769 ≤ s.cfg.srcSize →
    (s.par.chk = true → s.par.palPtr.toNat + 769 ≤ s.par.srcLen.toNat) →
    Memory.read s.src s.par.palPtr.toNat ≠ 0x0C#8 →
    ∃ t, exec .convertPalette s = .next t ∧ t.trace = [] ∧
      t = { s with err := 1#4, warn := false, sinkLog := [], puller := .idle, pulled := none }

/-- 41_palette_converter.md R126: in checked mode a block that ends beyond SRC_LEN raises UNEXPECTED_EOF (code 2) before the
marker is read and before any sink operation, whatever the block holds and wherever it lies. In unchecked mode there is no such
check: SRC_LEN does not matter to CONVERT_PALETTE. -/
def Obligations.PaletteRangeCheckComesFirst : Prop :=
  ∀ s : State,
    (s.par.chk = true → s.par.srcLen.toNat < s.par.palPtr.toNat + 769 → ∃ t, exec .convertPalette s = .next t ∧
      t.trace = [] ∧ t = { s with err := 2#4, warn := false, sinkLog := [], puller := .idle, pulled := none }) ∧
    (s.par.chk = false → ∀ l : Word, exec .convertPalette { s with par := { s.par with srcLen := l } } =
      mapStates (fun t => { t with par := { t.par with srcLen := l } }) (exec .convertPalette s))

/-- An inference 41_palette_converter.md marks as its own (from R120, R125 and R126: "it either issues all 513 operations of
rule R124, or none (on an error), or faults before any"): CONVERT_PALETTE has no partial outcome: it issues all 513 operations,
or none (on an error), or faults before any (F_SRC_RANGE). -/
def Obligations.ConvertPaletteHasNoPartialOutcome : Prop :=
  ∀ s : State,
    (∃ t, exec .convertPalette s = .next t ∧ t.err = 0#4 ∧ t.trace.length = 513) ∨
    (∃ t, exec .convertPalette s = .next t ∧ (t.err = 1#4 ∨ t.err = 2#4) ∧ t.trace = [] ∧ t.dev = s.dev) ∨
    (∃ u, exec .convertPalette s = .fault (.srcRange u) ∧ u.trace = [] ∧ u.dev = s.dev)

/-! ### All instructions -/

/-- 10_state.md R28 to R35 ("No command changes it"), 20_memory.md R51 and the inference of 40_command_dispatch.md on operand
sampling: no command changes a parameter register (CTRL, SRC_LEN, PAL_PTR, VRAM_BASE, STRIDE, XPOS to COLOR), source memory, the
configuration or the host's side. -/
def Obligations.NoCommandChangesParameters : Prop :=
  ∀ (i : Instr) (s t : State), s.cfg.legal = true → exec i s = .next t →
    t.par = s.par ∧ t.src = s.src ∧ t.cfg = s.cfg ∧ t.inbox = s.inbox ∧ t.readData = s.readData ∧ t.faulted = s.faulted

/-- 10_state.md R27, R36, R38, R39, R42, 20_memory.md R50 and the commands' rules R101, R120, R147, R160, R180: PIXEL is written
only by DECODE_PIXEL; NOP, CONVERT_PALETTE and DRAW_LINE leave the decoder state and SRC_PTR; VRAM is left by NOP,
CONVERT_PALETTE and DECODE_PIXEL and PAL by every command but CONVERT_PALETTE; WARN is 0 after every command but DRAW_IMAGE. -/
def Obligations.EachCommandWritesOnlyItsOwnState : Prop :=
  ∀ (i : Instr) (s t : State), s.cfg.legal = true → i.isToken = false → exec i s = .next t →
    (i ≠ .decodePixel → t.pixelValid = s.pixelValid ∧ t.pixelValue = s.pixelValue) ∧
    (i = .nop ∨ i = .convertPalette ∨ i = .drawLine → t.runCnt = s.runCnt ∧ t.runVal = s.runVal ∧ t.srcPtr = s.srcPtr) ∧
    (i ≠ .drawImage → t.warn = false ∧ t.pendValid = s.pendValid ∧ t.pendByte = s.pendByte) ∧
    (i = .nop ∨ i = .convertPalette ∨ i = .decodePixel →
      t.dev.vram = s.dev.vram ∧ t.dev.wrCursor = s.dev.wrCursor) ∧
    (i ≠ .convertPalette → t.dev.pal = s.dev.pal ∧ t.dev.palCursor = s.dev.palCursor)

/-- A consequence of 42_rle_decoder.md R143 that the spec states with its own inferences ("No command decreases SRC_PTR; only a
host write can move it back"). -/
def Obligations.NoCommandMovesSrcPtrBack : Prop :=
  ∀ (i : Instr) (s t : State), s.cfg.legal = true → i.isToken = false → exec i s = .next t →
    s.srcPtr.toNat ≤ t.srcPtr.toNat

/-- 00_scope.md R9, 20_memory.md R60: the device states after a command are the result of applying its trace in order to the
devices before it, and every VramRead in the trace returned what VRAM held at that point. -/
def Obligations.DevicesAreTheReplayedTrace : Prop :=
  ∀ (i : Instr) (s t : State), s.cfg.legal = true → i.isToken = false → exec i s = .next t →
    t.dev = replay s.cfg t.trace s.dev ∧ readsRight s.cfg t.trace s.dev

/-- 10_state.md R24, 20_memory.md R52: in unchecked mode SRC_LEN is not consulted. Changing it changes nothing of any
instruction's outcome but SRC_LEN itself. -/
def Obligations.UncheckedModeIgnoresSrcLen : Prop :=
  ∀ (i : Instr) (s : State) (l : Word), s.par.chk = false →
    exec i { s with par := { s.par with srcLen := l } } =
      mapStates (fun t => { t with par := { t.par with srcLen := l } }) (exec i s)

/-- A consequence of 20_memory.md R52, 60_exceptions.md R203 and the inference of 70_reset_and_hazards.md that "Every command
ends after finitely many steps": in checked mode with SRC_LEN within source memory, every instruction ends in a next state: no
model fault can happen and none is refused. -/
def Obligations.CheckedModeNeverFaults : Prop :=
  ∀ (i : Instr) (s : State), s.cfg.legal = true → s.par.chk = true → s.par.srcLen.toNat ≤ s.cfg.srcSize →
    ∃ t, exec i s = .next t

/-- 60_exceptions.md R203 and the inference of 44_line_rasterizer.md that DRAW_LINE has no model fault: no instruction is ever
refused, and a fault is one of the two of R203: F_RUN_OVERRUN in unchecked mode only and by DRAW_IMAGE (or its RUN token),
F_SRC_RANGE by CONVERT_PALETTE, DECODE_PIXEL or DRAW_IMAGE. NOP, DRAW_LINE and the literals never fault. -/
def Obligations.FaultsAreThoseOfTheTable : Prop :=
  ∀ (i : Instr) (s : State), s.cfg.legal = true →
    (∀ r, exec i s ≠ .refused r) ∧
    (∀ u, exec i s = .fault (.runOverrun u) → s.par.chk = false ∧ (i = .drawImage ∨ ∃ n v, i = .run n v)) ∧
    (∀ u, exec i s = .fault (.srcRange u) → i = .convertPalette ∨ i = .decodePixel ∨ i = .drawImage)

/-! ### The invariant -/

/-- The state right after reset meets the invariant. -/
def Obligations.ResetMeetsInvariant : Prop := State.reset.Inv

/-- From every state that meets the invariant every step gives a state that meets it: the memories keep their canonical form and
bounds, VRAM_BASE and WR_CURSOR stay word addresses (10_state.md R21, 20_memory.md R55), STATUS.ERR stays 0 to 4 (R26), RUN_CNT
0 to 62 (R38), and between steps PEND_VALID is 0 (R39) and nobody pulls. -/
def Obligations.StepKeepsInvariant : Prop :=
  ∀ s t : State, s.Inv → step s = .next t → t.Inv
end

