-- ==== Sys2Proof/Laws/State.lean ====
section
/-! SUPPORT. One lemma per field per update of State, so that no later proof unfolds a record update. -/

namespace Sys2Proof.Machine

/-! ### clearStatus -/

@[simp] theorem clearStatus_cfg (s : State) : (clearStatus s).cfg = s.cfg := rfl
@[simp] theorem clearStatus_par (s : State) : (clearStatus s).par = s.par := rfl
@[simp] theorem clearStatus_srcPtr (s : State) : (clearStatus s).srcPtr = s.srcPtr := rfl
@[simp] theorem clearStatus_err (s : State) : (clearStatus s).err = 0#4 := rfl
@[simp] theorem clearStatus_warn (s : State) : (clearStatus s).warn = false := rfl
@[simp] theorem clearStatus_pixelValid (s : State) : (clearStatus s).pixelValid = s.pixelValid := rfl
@[simp] theorem clearStatus_pixelValue (s : State) : (clearStatus s).pixelValue = s.pixelValue := rfl
@[simp] theorem clearStatus_runCnt (s : State) : (clearStatus s).runCnt = s.runCnt := rfl
@[simp] theorem clearStatus_runVal (s : State) : (clearStatus s).runVal = s.runVal := rfl
@[simp] theorem clearStatus_pendValid (s : State) : (clearStatus s).pendValid = s.pendValid := rfl
@[simp] theorem clearStatus_pendByte (s : State) : (clearStatus s).pendByte = s.pendByte := rfl
@[simp] theorem clearStatus_src (s : State) : (clearStatus s).src = s.src := rfl
@[simp] theorem clearStatus_dev (s : State) : (clearStatus s).dev = s.dev := rfl
@[simp] theorem clearStatus_faulted (s : State) : (clearStatus s).faulted = s.faulted := rfl
@[simp] theorem clearStatus_inbox (s : State) : (clearStatus s).inbox = s.inbox := rfl
@[simp] theorem clearStatus_readData (s : State) : (clearStatus s).readData = s.readData := rfl
@[simp] theorem clearStatus_sinkLog (s : State) : (clearStatus s).sinkLog = s.sinkLog := rfl
@[simp] theorem clearStatus_puller (s : State) : (clearStatus s).puller = s.puller := rfl
@[simp] theorem clearStatus_pulled (s : State) : (clearStatus s).pulled = s.pulled := rfl

/-! ### setError -/

@[simp] theorem setError_cfg (e : ErrorCode) (s : State) : (setError e s).cfg = s.cfg := rfl
@[simp] theorem setError_par (e : ErrorCode) (s : State) : (setError e s).par = s.par := rfl
@[simp] theorem setError_srcPtr (e : ErrorCode) (s : State) : (setError e s).srcPtr = s.srcPtr := rfl
@[simp] theorem setError_err (e : ErrorCode) (s : State) : (setError e s).err = e.code := rfl
@[simp] theorem setError_warn (e : ErrorCode) (s : State) : (setError e s).warn = s.warn := rfl
@[simp] theorem setError_pixelValid (e : ErrorCode) (s : State) : (setError e s).pixelValid = s.pixelValid := rfl
@[simp] theorem setError_pixelValue (e : ErrorCode) (s : State) : (setError e s).pixelValue = s.pixelValue := rfl
@[simp] theorem setError_runCnt (e : ErrorCode) (s : State) : (setError e s).runCnt = s.runCnt := rfl
@[simp] theorem setError_runVal (e : ErrorCode) (s : State) : (setError e s).runVal = s.runVal := rfl
@[simp] theorem setError_pendValid (e : ErrorCode) (s : State) : (setError e s).pendValid = s.pendValid := rfl
@[simp] theorem setError_pendByte (e : ErrorCode) (s : State) : (setError e s).pendByte = s.pendByte := rfl
@[simp] theorem setError_src (e : ErrorCode) (s : State) : (setError e s).src = s.src := rfl
@[simp] theorem setError_dev (e : ErrorCode) (s : State) : (setError e s).dev = s.dev := rfl
@[simp] theorem setError_faulted (e : ErrorCode) (s : State) : (setError e s).faulted = s.faulted := rfl
@[simp] theorem setError_inbox (e : ErrorCode) (s : State) : (setError e s).inbox = s.inbox := rfl
@[simp] theorem setError_readData (e : ErrorCode) (s : State) : (setError e s).readData = s.readData := rfl
@[simp] theorem setError_sinkLog (e : ErrorCode) (s : State) : (setError e s).sinkLog = s.sinkLog := rfl
@[simp] theorem setError_puller (e : ErrorCode) (s : State) : (setError e s).puller = s.puller := rfl
@[simp] theorem setError_pulled (e : ErrorCode) (s : State) : (setError e s).pulled = s.pulled := rfl

/-! ### warnUnflushed -/

@[simp] theorem warnUnflushed_cfg (s : State) : (warnUnflushed s).cfg = s.cfg := rfl
@[simp] theorem warnUnflushed_par (s : State) : (warnUnflushed s).par = s.par := rfl
@[simp] theorem warnUnflushed_srcPtr (s : State) : (warnUnflushed s).srcPtr = s.srcPtr := rfl
@[simp] theorem warnUnflushed_err (s : State) : (warnUnflushed s).err = s.err := rfl
@[simp] theorem warnUnflushed_warn (s : State) : (warnUnflushed s).warn = true := rfl
@[simp] theorem warnUnflushed_pixelValid (s : State) : (warnUnflushed s).pixelValid = s.pixelValid := rfl
@[simp] theorem warnUnflushed_pixelValue (s : State) : (warnUnflushed s).pixelValue = s.pixelValue := rfl
@[simp] theorem warnUnflushed_runCnt (s : State) : (warnUnflushed s).runCnt = s.runCnt := rfl
@[simp] theorem warnUnflushed_runVal (s : State) : (warnUnflushed s).runVal = s.runVal := rfl
@[simp] theorem warnUnflushed_pendValid (s : State) : (warnUnflushed s).pendValid = s.pendValid := rfl
@[simp] theorem warnUnflushed_pendByte (s : State) : (warnUnflushed s).pendByte = s.pendByte := rfl
@[simp] theorem warnUnflushed_src (s : State) : (warnUnflushed s).src = s.src := rfl
@[simp] theorem warnUnflushed_dev (s : State) : (warnUnflushed s).dev = s.dev := rfl
@[simp] theorem warnUnflushed_faulted (s : State) : (warnUnflushed s).faulted = s.faulted := rfl
@[simp] theorem warnUnflushed_inbox (s : State) : (warnUnflushed s).inbox = s.inbox := rfl
@[simp] theorem warnUnflushed_readData (s : State) : (warnUnflushed s).readData = s.readData := rfl
@[simp] theorem warnUnflushed_sinkLog (s : State) : (warnUnflushed s).sinkLog = s.sinkLog := rfl
@[simp] theorem warnUnflushed_puller (s : State) : (warnUnflushed s).puller = s.puller := rfl
@[simp] theorem warnUnflushed_pulled (s : State) : (warnUnflushed s).pulled = s.pulled := rfl

/-! ### setPixel -/

@[simp] theorem setPixel_cfg (p : Byte) (s : State) : (setPixel p s).cfg = s.cfg := rfl
@[simp] theorem setPixel_par (p : Byte) (s : State) : (setPixel p s).par = s.par := rfl
@[simp] theorem setPixel_srcPtr (p : Byte) (s : State) : (setPixel p s).srcPtr = s.srcPtr := rfl
@[simp] theorem setPixel_err (p : Byte) (s : State) : (setPixel p s).err = s.err := rfl
@[simp] theorem setPixel_warn (p : Byte) (s : State) : (setPixel p s).warn = s.warn := rfl
@[simp] theorem setPixel_pixelValid (p : Byte) (s : State) : (setPixel p s).pixelValid = true := rfl
@[simp] theorem setPixel_pixelValue (p : Byte) (s : State) : (setPixel p s).pixelValue = p := rfl
@[simp] theorem setPixel_runCnt (p : Byte) (s : State) : (setPixel p s).runCnt = s.runCnt := rfl
@[simp] theorem setPixel_runVal (p : Byte) (s : State) : (setPixel p s).runVal = s.runVal := rfl
@[simp] theorem setPixel_pendValid (p : Byte) (s : State) : (setPixel p s).pendValid = s.pendValid := rfl
@[simp] theorem setPixel_pendByte (p : Byte) (s : State) : (setPixel p s).pendByte = s.pendByte := rfl
@[simp] theorem setPixel_src (p : Byte) (s : State) : (setPixel p s).src = s.src := rfl
@[simp] theorem setPixel_dev (p : Byte) (s : State) : (setPixel p s).dev = s.dev := rfl
@[simp] theorem setPixel_faulted (p : Byte) (s : State) : (setPixel p s).faulted = s.faulted := rfl
@[simp] theorem setPixel_inbox (p : Byte) (s : State) : (setPixel p s).inbox = s.inbox := rfl
@[simp] theorem setPixel_readData (p : Byte) (s : State) : (setPixel p s).readData = s.readData := rfl
@[simp] theorem setPixel_sinkLog (p : Byte) (s : State) : (setPixel p s).sinkLog = s.sinkLog := rfl
@[simp] theorem setPixel_puller (p : Byte) (s : State) : (setPixel p s).puller = s.puller := rfl
@[simp] theorem setPixel_pulled (p : Byte) (s : State) : (setPixel p s).pulled = s.pulled := rfl

/-! ### clearPixel -/

@[simp] theorem clearPixel_cfg (s : State) : (clearPixel s).cfg = s.cfg := rfl
@[simp] theorem clearPixel_par (s : State) : (clearPixel s).par = s.par := rfl
@[simp] theorem clearPixel_srcPtr (s : State) : (clearPixel s).srcPtr = s.srcPtr := rfl
@[simp] theorem clearPixel_err (s : State) : (clearPixel s).err = s.err := rfl
@[simp] theorem clearPixel_warn (s : State) : (clearPixel s).warn = s.warn := rfl
@[simp] theorem clearPixel_pixelValid (s : State) : (clearPixel s).pixelValid = false := rfl
@[simp] theorem clearPixel_pixelValue (s : State) : (clearPixel s).pixelValue = 0#8 := rfl
@[simp] theorem clearPixel_runCnt (s : State) : (clearPixel s).runCnt = s.runCnt := rfl
@[simp] theorem clearPixel_runVal (s : State) : (clearPixel s).runVal = s.runVal := rfl
@[simp] theorem clearPixel_pendValid (s : State) : (clearPixel s).pendValid = s.pendValid := rfl
@[simp] theorem clearPixel_pendByte (s : State) : (clearPixel s).pendByte = s.pendByte := rfl
@[simp] theorem clearPixel_src (s : State) : (clearPixel s).src = s.src := rfl
@[simp] theorem clearPixel_dev (s : State) : (clearPixel s).dev = s.dev := rfl
@[simp] theorem clearPixel_faulted (s : State) : (clearPixel s).faulted = s.faulted := rfl
@[simp] theorem clearPixel_inbox (s : State) : (clearPixel s).inbox = s.inbox := rfl
@[simp] theorem clearPixel_readData (s : State) : (clearPixel s).readData = s.readData := rfl
@[simp] theorem clearPixel_sinkLog (s : State) : (clearPixel s).sinkLog = s.sinkLog := rfl
@[simp] theorem clearPixel_puller (s : State) : (clearPixel s).puller = s.puller := rfl
@[simp] theorem clearPixel_pulled (s : State) : (clearPixel s).pulled = s.pulled := rfl

/-! ### issue -/

@[simp] theorem issue_cfg (op : SinkOp) (s : State) : (issue op s).cfg = s.cfg := rfl
@[simp] theorem issue_par (op : SinkOp) (s : State) : (issue op s).par = s.par := rfl
@[simp] theorem issue_srcPtr (op : SinkOp) (s : State) : (issue op s).srcPtr = s.srcPtr := rfl
@[simp] theorem issue_err (op : SinkOp) (s : State) : (issue op s).err = s.err := rfl
@[simp] theorem issue_warn (op : SinkOp) (s : State) : (issue op s).warn = s.warn := rfl
@[simp] theorem issue_pixelValid (op : SinkOp) (s : State) : (issue op s).pixelValid = s.pixelValid := rfl
@[simp] theorem issue_pixelValue (op : SinkOp) (s : State) : (issue op s).pixelValue = s.pixelValue := rfl
@[simp] theorem issue_runCnt (op : SinkOp) (s : State) : (issue op s).runCnt = s.runCnt := rfl
@[simp] theorem issue_runVal (op : SinkOp) (s : State) : (issue op s).runVal = s.runVal := rfl
@[simp] theorem issue_pendValid (op : SinkOp) (s : State) : (issue op s).pendValid = s.pendValid := rfl
@[simp] theorem issue_pendByte (op : SinkOp) (s : State) : (issue op s).pendByte = s.pendByte := rfl
@[simp] theorem issue_src (op : SinkOp) (s : State) : (issue op s).src = s.src := rfl
@[simp] theorem issue_dev (op : SinkOp) (s : State) : (issue op s).dev = s.dev.apply s.cfg op := rfl
@[simp] theorem issue_faulted (op : SinkOp) (s : State) : (issue op s).faulted = s.faulted := rfl
@[simp] theorem issue_inbox (op : SinkOp) (s : State) : (issue op s).inbox = s.inbox := rfl
@[simp] theorem issue_readData (op : SinkOp) (s : State) : (issue op s).readData = s.readData := rfl
@[simp] theorem issue_sinkLog (op : SinkOp) (s : State) : (issue op s).sinkLog = op :: s.sinkLog := rfl
@[simp] theorem issue_puller (op : SinkOp) (s : State) : (issue op s).puller = s.puller := rfl
@[simp] theorem issue_pulled (op : SinkOp) (s : State) : (issue op s).pulled = s.pulled := rfl

/-! ### beginCommand -/

@[simp] theorem beginCommand_cfg (s : State) : (beginCommand s).cfg = s.cfg := rfl
@[simp] theorem beginCommand_par (s : State) : (beginCommand s).par = s.par := rfl
@[simp] theorem beginCommand_srcPtr (s : State) : (beginCommand s).srcPtr = s.srcPtr := rfl
@[simp] theorem beginCommand_err (s : State) : (beginCommand s).err = 0#4 := rfl
@[simp] theorem beginCommand_warn (s : State) : (beginCommand s).warn = false := rfl
@[simp] theorem beginCommand_pixelValid (s : State) : (beginCommand s).pixelValid = s.pixelValid := rfl
@[simp] theorem beginCommand_pixelValue (s : State) : (beginCommand s).pixelValue = s.pixelValue := rfl
@[simp] theorem beginCommand_runCnt (s : State) : (beginCommand s).runCnt = s.runCnt := rfl
@[simp] theorem beginCommand_runVal (s : State) : (beginCommand s).runVal = s.runVal := rfl
@[simp] theorem beginCommand_pendValid (s : State) : (beginCommand s).pendValid = s.pendValid := rfl
@[simp] theorem beginCommand_pendByte (s : State) : (beginCommand s).pendByte = s.pendByte := rfl
@[simp] theorem beginCommand_src (s : State) : (beginCommand s).src = s.src := rfl
@[simp] theorem beginCommand_dev (s : State) : (beginCommand s).dev = s.dev := rfl
@[simp] theorem beginCommand_faulted (s : State) : (beginCommand s).faulted = s.faulted := rfl
@[simp] theorem beginCommand_inbox (s : State) : (beginCommand s).inbox = s.inbox := rfl
@[simp] theorem beginCommand_readData (s : State) : (beginCommand s).readData = s.readData := rfl
@[simp] theorem beginCommand_sinkLog (s : State) : (beginCommand s).sinkLog = [] := rfl
@[simp] theorem beginCommand_puller (s : State) : (beginCommand s).puller = s.puller := rfl
@[simp] theorem beginCommand_pulled (s : State) : (beginCommand s).pulled = s.pulled := rfl

/-! ### badCommand -/

@[simp] theorem badCommand_cfg (s : State) : (badCommand s).cfg = s.cfg := rfl
@[simp] theorem badCommand_par (s : State) : (badCommand s).par = s.par := rfl
@[simp] theorem badCommand_srcPtr (s : State) : (badCommand s).srcPtr = s.srcPtr := rfl
@[simp] theorem badCommand_err (s : State) : (badCommand s).err = 4#4 := rfl
@[simp] theorem badCommand_warn (s : State) : (badCommand s).warn = false := rfl
@[simp] theorem badCommand_pixelValid (s : State) : (badCommand s).pixelValid = s.pixelValid := rfl
@[simp] theorem badCommand_pixelValue (s : State) : (badCommand s).pixelValue = s.pixelValue := rfl
@[simp] theorem badCommand_runCnt (s : State) : (badCommand s).runCnt = s.runCnt := rfl
@[simp] theorem badCommand_runVal (s : State) : (badCommand s).runVal = s.runVal := rfl
@[simp] theorem badCommand_pendValid (s : State) : (badCommand s).pendValid = s.pendValid := rfl
@[simp] theorem badCommand_pendByte (s : State) : (badCommand s).pendByte = s.pendByte := rfl
@[simp] theorem badCommand_src (s : State) : (badCommand s).src = s.src := rfl
@[simp] theorem badCommand_dev (s : State) : (badCommand s).dev = s.dev := rfl
@[simp] theorem badCommand_faulted (s : State) : (badCommand s).faulted = s.faulted := rfl
@[simp] theorem badCommand_inbox (s : State) : (badCommand s).inbox = s.inbox := rfl
@[simp] theorem badCommand_readData (s : State) : (badCommand s).readData = s.readData := rfl
@[simp] theorem badCommand_sinkLog (s : State) : (badCommand s).sinkLog = [] := rfl
@[simp] theorem badCommand_puller (s : State) : (badCommand s).puller = s.puller := rfl
@[simp] theorem badCommand_pulled (s : State) : (badCommand s).pulled = s.pulled := rfl

/-! ### clearDecoder -/

@[simp] theorem clearDecoder_cfg (s : State) : (clearDecoder s).cfg = s.cfg := rfl
@[simp] theorem clearDecoder_par (s : State) : (clearDecoder s).par = s.par := rfl
@[simp] theorem clearDecoder_srcPtr (s : State) : (clearDecoder s).srcPtr = s.srcPtr := rfl
@[simp] theorem clearDecoder_err (s : State) : (clearDecoder s).err = s.err := rfl
@[simp] theorem clearDecoder_warn (s : State) : (clearDecoder s).warn = s.warn := rfl
@[simp] theorem clearDecoder_pixelValid (s : State) : (clearDecoder s).pixelValid = s.pixelValid := rfl
@[simp] theorem clearDecoder_pixelValue (s : State) : (clearDecoder s).pixelValue = s.pixelValue := rfl
@[simp] theorem clearDecoder_runCnt (s : State) : (clearDecoder s).runCnt = 0#6 := rfl
@[simp] theorem clearDecoder_runVal (s : State) : (clearDecoder s).runVal = 0#8 := rfl
@[simp] theorem clearDecoder_pendValid (s : State) : (clearDecoder s).pendValid = s.pendValid := rfl
@[simp] theorem clearDecoder_pendByte (s : State) : (clearDecoder s).pendByte = s.pendByte := rfl
@[simp] theorem clearDecoder_src (s : State) : (clearDecoder s).src = s.src := rfl
@[simp] theorem clearDecoder_dev (s : State) : (clearDecoder s).dev = s.dev := rfl
@[simp] theorem clearDecoder_faulted (s : State) : (clearDecoder s).faulted = s.faulted := rfl
@[simp] theorem clearDecoder_inbox (s : State) : (clearDecoder s).inbox = s.inbox := rfl
@[simp] theorem clearDecoder_readData (s : State) : (clearDecoder s).readData = s.readData := rfl
@[simp] theorem clearDecoder_sinkLog (s : State) : (clearDecoder s).sinkLog = s.sinkLog := rfl
@[simp] theorem clearDecoder_puller (s : State) : (clearDecoder s).puller = s.puller := rfl
@[simp] theorem clearDecoder_pulled (s : State) : (clearDecoder s).pulled = s.pulled := rfl

/-! ### endPulling -/

@[simp] theorem endPulling_cfg (s : State) : (endPulling s).cfg = s.cfg := rfl
@[simp] theorem endPulling_par (s : State) : (endPulling s).par = s.par := rfl
@[simp] theorem endPulling_srcPtr (s : State) : (endPulling s).srcPtr = s.srcPtr := rfl
@[simp] theorem endPulling_err (s : State) : (endPulling s).err = s.err := rfl
@[simp] theorem endPulling_warn (s : State) : (endPulling s).warn = s.warn := rfl
@[simp] theorem endPulling_pixelValid (s : State) : (endPulling s).pixelValid = s.pixelValid := rfl
@[simp] theorem endPulling_pixelValue (s : State) : (endPulling s).pixelValue = s.pixelValue := rfl
@[simp] theorem endPulling_runCnt (s : State) : (endPulling s).runCnt = s.runCnt := rfl
@[simp] theorem endPulling_runVal (s : State) : (endPulling s).runVal = s.runVal := rfl
@[simp] theorem endPulling_pendValid (s : State) : (endPulling s).pendValid = s.pendValid := rfl
@[simp] theorem endPulling_pendByte (s : State) : (endPulling s).pendByte = s.pendByte := rfl
@[simp] theorem endPulling_src (s : State) : (endPulling s).src = s.src := rfl
@[simp] theorem endPulling_dev (s : State) : (endPulling s).dev = s.dev := rfl
@[simp] theorem endPulling_faulted (s : State) : (endPulling s).faulted = s.faulted := rfl
@[simp] theorem endPulling_inbox (s : State) : (endPulling s).inbox = s.inbox := rfl
@[simp] theorem endPulling_readData (s : State) : (endPulling s).readData = s.readData := rfl
@[simp] theorem endPulling_sinkLog (s : State) : (endPulling s).sinkLog = s.sinkLog := rfl
@[simp] theorem endPulling_puller (s : State) : (endPulling s).puller = .idle := rfl
@[simp] theorem endPulling_pulled (s : State) : (endPulling s).pulled = none := rfl

/-! ### startScanline -/

@[simp] theorem startScanline_cfg (y : Nat) (s : State) : (startScanline y s).cfg = s.cfg := rfl
@[simp] theorem startScanline_par (y : Nat) (s : State) : (startScanline y s).par = s.par := rfl
@[simp] theorem startScanline_srcPtr (y : Nat) (s : State) : (startScanline y s).srcPtr = s.srcPtr := rfl
@[simp] theorem startScanline_err (y : Nat) (s : State) : (startScanline y s).err = s.err := rfl
@[simp] theorem startScanline_warn (y : Nat) (s : State) : (startScanline y s).warn = s.warn := rfl
@[simp] theorem startScanline_pixelValid (y : Nat) (s : State) : (startScanline y s).pixelValid = s.pixelValid := rfl
@[simp] theorem startScanline_pixelValue (y : Nat) (s : State) : (startScanline y s).pixelValue = s.pixelValue := rfl
@[simp] theorem startScanline_runCnt (y : Nat) (s : State) : (startScanline y s).runCnt = s.runCnt := rfl
@[simp] theorem startScanline_runVal (y : Nat) (s : State) : (startScanline y s).runVal = s.runVal := rfl
@[simp] theorem startScanline_pendValid (y : Nat) (s : State) : (startScanline y s).pendValid = s.pendValid := rfl
@[simp] theorem startScanline_pendByte (y : Nat) (s : State) : (startScanline y s).pendByte = s.pendByte := rfl
@[simp] theorem startScanline_src (y : Nat) (s : State) : (startScanline y s).src = s.src := rfl
@[simp] theorem startScanline_dev (y : Nat) (s : State) : (startScanline y s).dev = s.dev.apply s.cfg (.vramSetCursor (rowStart s.cfg s.par y)) := rfl
@[simp] theorem startScanline_faulted (y : Nat) (s : State) : (startScanline y s).faulted = s.faulted := rfl
@[simp] theorem startScanline_inbox (y : Nat) (s : State) : (startScanline y s).inbox = s.inbox := rfl
@[simp] theorem startScanline_readData (y : Nat) (s : State) : (startScanline y s).readData = s.readData := rfl
@[simp] theorem startScanline_sinkLog (y : Nat) (s : State) : (startScanline y s).sinkLog = .vramSetCursor (rowStart s.cfg s.par y) :: s.sinkLog := rfl
@[simp] theorem startScanline_puller (y : Nat) (s : State) : (startScanline y s).puller = s.puller := rfl
@[simp] theorem startScanline_pulled (y : Nat) (s : State) : (startScanline y s).pulled = s.pulled := rfl

/-! ### beginImage -/

@[simp] theorem beginImage_cfg (s : State) : (beginImage s).cfg = s.cfg := rfl
@[simp] theorem beginImage_par (s : State) : (beginImage s).par = s.par := rfl
@[simp] theorem beginImage_srcPtr (s : State) : (beginImage s).srcPtr = s.srcPtr := rfl
@[simp] theorem beginImage_err (s : State) : (beginImage s).err = 0#4 := rfl
@[simp] theorem beginImage_warn (s : State) : (beginImage s).warn = false := rfl
@[simp] theorem beginImage_pixelValid (s : State) : (beginImage s).pixelValid = s.pixelValid := rfl
@[simp] theorem beginImage_pixelValue (s : State) : (beginImage s).pixelValue = s.pixelValue := rfl
@[simp] theorem beginImage_runCnt (s : State) : (beginImage s).runCnt = 0#6 := rfl
@[simp] theorem beginImage_runVal (s : State) : (beginImage s).runVal = 0#8 := rfl
@[simp] theorem beginImage_pendValid (s : State) : (beginImage s).pendValid = false := rfl
@[simp] theorem beginImage_pendByte (s : State) : (beginImage s).pendByte = s.pendByte := rfl
@[simp] theorem beginImage_src (s : State) : (beginImage s).src = s.src := rfl
@[simp] theorem beginImage_dev (s : State) : (beginImage s).dev = s.dev := rfl
@[simp] theorem beginImage_faulted (s : State) : (beginImage s).faulted = s.faulted := rfl
@[simp] theorem beginImage_inbox (s : State) : (beginImage s).inbox = s.inbox := rfl
@[simp] theorem beginImage_readData (s : State) : (beginImage s).readData = s.readData := rfl
@[simp] theorem beginImage_sinkLog (s : State) : (beginImage s).sinkLog = [] := rfl
@[simp] theorem beginImage_puller (s : State) : (beginImage s).puller = .drawImage s.par.width.toNat := rfl
@[simp] theorem beginImage_pulled (s : State) : (beginImage s).pulled = none := rfl

/-! ### hostDevice -/

@[simp] theorem hostDevice_cfg (op : SinkOp) (s : State) : (hostDevice op s).cfg = s.cfg := rfl
@[simp] theorem hostDevice_par (op : SinkOp) (s : State) : (hostDevice op s).par = s.par := rfl
@[simp] theorem hostDevice_srcPtr (op : SinkOp) (s : State) : (hostDevice op s).srcPtr = s.srcPtr := rfl
@[simp] theorem hostDevice_err (op : SinkOp) (s : State) : (hostDevice op s).err = s.err := rfl
@[simp] theorem hostDevice_warn (op : SinkOp) (s : State) : (hostDevice op s).warn = s.warn := rfl
@[simp] theorem hostDevice_pixelValid (op : SinkOp) (s : State) : (hostDevice op s).pixelValid = s.pixelValid := rfl
@[simp] theorem hostDevice_pixelValue (op : SinkOp) (s : State) : (hostDevice op s).pixelValue = s.pixelValue := rfl
@[simp] theorem hostDevice_runCnt (op : SinkOp) (s : State) : (hostDevice op s).runCnt = s.runCnt := rfl
@[simp] theorem hostDevice_runVal (op : SinkOp) (s : State) : (hostDevice op s).runVal = s.runVal := rfl
@[simp] theorem hostDevice_pendValid (op : SinkOp) (s : State) : (hostDevice op s).pendValid = s.pendValid := rfl
@[simp] theorem hostDevice_pendByte (op : SinkOp) (s : State) : (hostDevice op s).pendByte = s.pendByte := rfl
@[simp] theorem hostDevice_src (op : SinkOp) (s : State) : (hostDevice op s).src = s.src := rfl
@[simp] theorem hostDevice_dev (op : SinkOp) (s : State) : (hostDevice op s).dev = s.dev.apply s.cfg op := rfl
@[simp] theorem hostDevice_faulted (op : SinkOp) (s : State) : (hostDevice op s).faulted = s.faulted := rfl
@[simp] theorem hostDevice_inbox (op : SinkOp) (s : State) : (hostDevice op s).inbox = s.inbox := rfl
@[simp] theorem hostDevice_readData (op : SinkOp) (s : State) : (hostDevice op s).readData = s.readData := rfl
@[simp] theorem hostDevice_sinkLog (op : SinkOp) (s : State) : (hostDevice op s).sinkLog = s.sinkLog := rfl
@[simp] theorem hostDevice_puller (op : SinkOp) (s : State) : (hostDevice op s).puller = s.puller := rfl
@[simp] theorem hostDevice_pulled (op : SinkOp) (s : State) : (hostDevice op s).pulled = s.pulled := rfl

/-! ### What needs a case split: each update's unchanged fields -/

/-- `raise E` (60_exceptions.md R205): STATUS.ERR is the code and nobody pulls any more. -/
@[simp] theorem raiseError_err (e : ErrorCode) (s : State) : (raiseError e s).err = e.code := by
  unfold raiseError; split <;> rfl

@[simp] theorem raiseError_puller (e : ErrorCode) (s : State) : (raiseError e s).puller = .idle := by
  unfold raiseError; split <;> rfl

@[simp] theorem raiseError_pulled (e : ErrorCode) (s : State) : (raiseError e s).pulled = none := by
  unfold raiseError; split <;> rfl

@[simp] theorem raiseError_cfg (e : ErrorCode) (s : State) : (raiseError e s).cfg = s.cfg := by
  unfold raiseError; split <;> rfl

@[simp] theorem raiseError_par (e : ErrorCode) (s : State) : (raiseError e s).par = s.par := by
  unfold raiseError; split <;> rfl

@[simp] theorem raiseError_srcPtr (e : ErrorCode) (s : State) : (raiseError e s).srcPtr = s.srcPtr := by
  unfold raiseError; split <;> rfl

@[simp] theorem raiseError_warn (e : ErrorCode) (s : State) : (raiseError e s).warn = s.warn := by
  unfold raiseError; split <;> rfl

@[simp] theorem raiseError_pendByte (e : ErrorCode) (s : State) : (raiseError e s).pendByte = s.pendByte := by
  unfold raiseError; split <;> rfl

@[simp] theorem raiseError_src (e : ErrorCode) (s : State) : (raiseError e s).src = s.src := by
  unfold raiseError; split <;> rfl

@[simp] theorem raiseError_dev (e : ErrorCode) (s : State) : (raiseError e s).dev = s.dev := by
  unfold raiseError; split <;> rfl

@[simp] theorem raiseError_faulted (e : ErrorCode) (s : State) : (raiseError e s).faulted = s.faulted := by
  unfold raiseError; split <;> rfl

@[simp] theorem raiseError_inbox (e : ErrorCode) (s : State) : (raiseError e s).inbox = s.inbox := by
  unfold raiseError; split <;> rfl

@[simp] theorem raiseError_readData (e : ErrorCode) (s : State) : (raiseError e s).readData = s.readData := by
  unfold raiseError; split <;> rfl

@[simp] theorem raiseError_sinkLog (e : ErrorCode) (s : State) : (raiseError e s).sinkLog = s.sinkLog := by
  unfold raiseError; split <;> rfl

@[simp] theorem endScanline_cfg (s : State) : (endScanline s).cfg = s.cfg := by
  unfold endScanline; split <;> rfl

@[simp] theorem endScanline_par (s : State) : (endScanline s).par = s.par := by
  unfold endScanline; split <;> rfl

@[simp] theorem endScanline_srcPtr (s : State) : (endScanline s).srcPtr = s.srcPtr := by
  unfold endScanline; split <;> rfl

@[simp] theorem endScanline_err (s : State) : (endScanline s).err = s.err := by
  unfold endScanline; split <;> rfl

@[simp] theorem endScanline_pixelValid (s : State) : (endScanline s).pixelValid = s.pixelValid := by
  unfold endScanline; split <;> rfl

@[simp] theorem endScanline_pixelValue (s : State) : (endScanline s).pixelValue = s.pixelValue := by
  unfold endScanline; split <;> rfl

@[simp] theorem endScanline_runCnt (s : State) : (endScanline s).runCnt = s.runCnt := by
  unfold endScanline; split <;> rfl

@[simp] theorem endScanline_runVal (s : State) : (endScanline s).runVal = s.runVal := by
  unfold endScanline; split <;> rfl

@[simp] theorem endScanline_pendByte (s : State) : (endScanline s).pendByte = s.pendByte := by
  unfold endScanline; split <;> rfl

@[simp] theorem endScanline_src (s : State) : (endScanline s).src = s.src := by
  unfold endScanline; split <;> rfl

@[simp] theorem endScanline_dev (s : State) : (endScanline s).dev = s.dev := by
  unfold endScanline; split <;> rfl

@[simp] theorem endScanline_faulted (s : State) : (endScanline s).faulted = s.faulted := by
  unfold endScanline; split <;> rfl

@[simp] theorem endScanline_inbox (s : State) : (endScanline s).inbox = s.inbox := by
  unfold endScanline; split <;> rfl

@[simp] theorem endScanline_readData (s : State) : (endScanline s).readData = s.readData := by
  unfold endScanline; split <;> rfl

@[simp] theorem endScanline_sinkLog (s : State) : (endScanline s).sinkLog = s.sinkLog := by
  unfold endScanline; split <;> rfl

@[simp] theorem endScanline_puller (s : State) : (endScanline s).puller = s.puller := by
  unfold endScanline; split <;> rfl

@[simp] theorem endScanline_pulled (s : State) : (endScanline s).pulled = s.pulled := by
  unfold endScanline; split <;> rfl

@[simp] theorem endScanline_pendValid (s : State) : (endScanline s).pendValid = false := by
  unfold endScanline; split <;> simp_all

/-- R163: the scanline's end sets the warning exactly when a pixel is pending. -/
@[simp] theorem endScanline_warn (s : State) : (endScanline s).warn = (s.warn || s.pendValid) := by
  unfold endScanline; split <;> simp_all

/-! ### Faults -/

@[simp] theorem markFault_cfg (c : FaultCause) (s : State) : (markFault c s).cfg = s.cfg := rfl
@[simp] theorem markFault_par (c : FaultCause) (s : State) : (markFault c s).par = s.par := rfl
@[simp] theorem markFault_srcPtr (c : FaultCause) (s : State) : (markFault c s).srcPtr = s.srcPtr := rfl
@[simp] theorem markFault_err (c : FaultCause) (s : State) : (markFault c s).err = s.err := rfl
@[simp] theorem markFault_warn (c : FaultCause) (s : State) : (markFault c s).warn = s.warn := rfl
@[simp] theorem markFault_pixelValid (c : FaultCause) (s : State) : (markFault c s).pixelValid = s.pixelValid := rfl
@[simp] theorem markFault_pixelValue (c : FaultCause) (s : State) : (markFault c s).pixelValue = s.pixelValue := rfl
@[simp] theorem markFault_runCnt (c : FaultCause) (s : State) : (markFault c s).runCnt = s.runCnt := rfl
@[simp] theorem markFault_runVal (c : FaultCause) (s : State) : (markFault c s).runVal = s.runVal := rfl
@[simp] theorem markFault_pendValid (c : FaultCause) (s : State) : (markFault c s).pendValid = s.pendValid := rfl
@[simp] theorem markFault_pendByte (c : FaultCause) (s : State) : (markFault c s).pendByte = s.pendByte := rfl
@[simp] theorem markFault_src (c : FaultCause) (s : State) : (markFault c s).src = s.src := rfl
@[simp] theorem markFault_dev (c : FaultCause) (s : State) : (markFault c s).dev = s.dev := rfl
@[simp] theorem markFault_faulted (c : FaultCause) (s : State) : (markFault c s).faulted = some c := rfl
@[simp] theorem markFault_inbox (c : FaultCause) (s : State) : (markFault c s).inbox = s.inbox := rfl
@[simp] theorem markFault_readData (c : FaultCause) (s : State) : (markFault c s).readData = s.readData := rfl
@[simp] theorem markFault_sinkLog (c : FaultCause) (s : State) : (markFault c s).sinkLog = s.sinkLog := rfl
@[simp] theorem markFault_puller (c : FaultCause) (s : State) : (markFault c s).puller = s.puller := rfl
@[simp] theorem markFault_pulled (c : FaultCause) (s : State) : (markFault c s).pulled = s.pulled := rfl

@[simp] theorem markFault_trace (c : FaultCause) (s : State) : (markFault c s).trace = s.trace := rfl
@[simp] theorem faultAt_state (c : FaultCause) (s : State) : (faultAt c s).state = s := by cases c <;> rfl
@[simp] theorem faultAt_cause (c : FaultCause) (s : State) : (faultAt c s).cause = c := by cases c <;> rfl
@[simp] theorem faultAt_srcRange (s : State) : faultAt .srcRange s = .srcRange s := rfl
@[simp] theorem faultAt_runOverrun (s : State) : faultAt .runOverrun s = .runOverrun s := rfl

/-- A fault is its cause and its state. -/
theorem faultAt_cause_state (f : Fault) : faultAt f.cause f.state = f := by cases f <;> rfl

end Sys2Proof.Machine
end

