-- ==== Sys2Proof/Laws/Outcome.lean ====
section
/-! SUPPORT. How outcomes are sequenced: the equations of `andThen` and its inversion, which later proofs use instead of splitting. -/

namespace Sys2Proof.Machine

@[simp] theorem andThen_next (s : State) (f : State → Result) : andThen (.next s) f = f s := rfl
@[simp] theorem andThen_fault (r : Fault) (f : State → Result) : andThen (.fault r) f = .fault r := rfl
@[simp] theorem andThen_refused (r : Refusal) (f : State → Result) : andThen (.refused r) f = .refused r := rfl

/-- A sequence ends in a next state exactly when both parts do. -/
theorem andThen_eq_next {r : Result} {f : State → Result} {t : State} :
    andThen r f = .next t ↔ ∃ s, r = .next s ∧ f s = .next t := by
  cases r <;> simp [andThen]

/-- A sequence faults exactly when its first part does or its second part does. -/
theorem andThen_eq_fault {r : Result} {f : State → Result} {x : Fault} :
    andThen r f = .fault x ↔ r = .fault x ∨ ∃ s, r = .next s ∧ f s = .fault x := by
  cases r <;> simp [andThen]

/-- A sequence is refused exactly when its first part is or its second part is. -/
theorem andThen_eq_refused {r : Result} {f : State → Result} {x : Refusal} :
    andThen r f = .refused x ↔ r = .refused x ∨ ∃ s, r = .next s ∧ f s = .refused x := by
  cases r <;> simp [andThen]

theorem andThen_assoc (r : Result) (f g : State → Result) :
    andThen (andThen r f) g = andThen r fun s => andThen (f s) g := by
  cases r <;> rfl

@[simp] theorem stopCommand_error (e : ErrorCode) (s : State) : stopCommand (.error e) s = .next (raiseError e s) := rfl
@[simp] theorem stopCommand_fault (c : FaultCause) (s : State) : stopCommand (.fault c) s = takeFault c s := rfl
@[simp] theorem andThen_takeFault (c : FaultCause) (s : State) (f : State → Result) :
    andThen (takeFault c s) f = takeFault c s := rfl
@[simp] theorem takeFault_ne_next (c : FaultCause) (s t : State) : takeFault c s ≠ .next t := nofun
@[simp] theorem takeFault_ne_refused (c : FaultCause) (s : State) (r : Refusal) : takeFault c s ≠ .refused r := nofun

/-- Taking a fault is the fault in the marked state. -/
theorem takeFault_eq_fault {c : FaultCause} {s : State} {f : Fault} :
    takeFault c s = .fault f ↔ f = faultAt c (markFault c s) := by
  simp [takeFault, eq_comm]

/-- The one thing a stop by a fault can be: the fault in the marked state. -/
theorem stopCommand_eq_fault {st : Stop} {s : State} {f : Fault} (h : stopCommand st s = .fault f) :
    ∃ c, st = .fault c ∧ f = faultAt c (markFault c s) := by
  cases st with
  | error e => cases h
  | fault c => cases h; exact ⟨c, rfl, rfl⟩

end Sys2Proof.Machine
end

