-- ==== Sys2Proof/Laws/Decoder.lean ====
section
/-! SUPPORT. What a token fetch and a pull can do, said once: the inversion lemmas of `fetchToken`, `runToken`, `pullLoop` and
`nextPixel`, and that the pull's fuel is always enough. -/

namespace Sys2Proof.Machine

/-! ### Fetching -/

/-- A fetched token is a token, never a command. -/
theorem tokenOf_isToken (T V : Byte) : (tokenOf T V).isToken = true := by
  unfold tokenOf; split <;> rfl

/-- SrcFetch gives the byte of source memory at an offset below SRC_SIZE and, in checked mode, below SRC_LEN. -/
theorem srcFetch_eq_ok {off : Nat} {s : State} {b : Byte} :
    srcFetch off s = .ok b ↔ Readable s off ∧ b = Memory.read s.src off := by
  unfold srcFetch memRead Readable
  split
  · next h => simp; intro _ h2; exact absurd (h2 h.1) (by omega)
  · next h =>
    split
    · simp; omega
    · simp only [Except.ok.injEq]
      constructor
      · rintro rfl
        exact ⟨⟨by omega, fun hc => by by_contra hn; exact h ⟨hc, by omega⟩⟩, rfl⟩
      · rintro ⟨-, rfl⟩; rfl

/-- SrcFetch stops by UNEXPECTED_EOF in checked mode only, or by F_SRC_RANGE. -/
theorem srcFetch_eq_error {off : Nat} {s : State} {st : Stop} (h : srcFetch off s = .error st) :
    (st = .error .unexpectedEof ∧ s.par.chk = true ∧ s.par.srcLen.toNat ≤ off) ∨
    (st = .fault .srcRange ∧ s.cfg.srcSize ≤ off) := by
  unfold srcFetch memRead at h
  split at h
  · next hc => cases h; exact .inl ⟨rfl, hc⟩
  · split at h
    · next hc => cases h; exact .inr ⟨rfl, hc⟩
    · cases h

/-- A token fetch that stops does so by UNEXPECTED_EOF in checked mode, or by F_SRC_RANGE at or before the fill byte. -/
theorem fetchToken_eq_error {s : State} {st : Stop} (h : fetchToken s = .error st) :
    (st = .error .unexpectedEof ∧ s.par.chk = true ∧ s.par.srcLen.toNat ≤ s.srcPtr.toNat + 1) ∨
    (st = .fault .srcRange ∧ s.cfg.srcSize ≤ s.srcPtr.toNat + 1) := by
  unfold fetchToken at h
  split at h
  · next he =>
    cases h
    rcases srcFetch_eq_error he with ⟨rfl, hc, hl⟩ | ⟨rfl, hl⟩
    · exact .inl ⟨rfl, hc, by omega⟩
    · exact .inr ⟨rfl, by omega⟩
  · split at h
    · split at h
      · next he =>
        cases h
        rcases srcFetch_eq_error he with ⟨rfl, hc, hl⟩ | ⟨rfl, hl⟩
        · exact .inl ⟨rfl, hc, by omega⟩
        · exact .inr ⟨rfl, by omega⟩
      · cases h
    · cases h

/-- What a token fetch gives: a literal whose one byte is readable, or a run whose two bytes are. -/
theorem fetchToken_eq_ok {s : State} {i : Instr} (h : fetchToken s = .ok i) :
    ∃ T, Readable s s.srcPtr.toNat ∧ T = Memory.read s.src s.srcPtr.toNat ∧
      ((isRunHeader T = false ∧ i = tokenOf T 0#8) ∨
       (isRunHeader T = true ∧ Readable s (s.srcPtr.toNat + 1) ∧
         i = tokenOf T (Memory.read s.src (s.srcPtr.toNat + 1)))) := by
  unfold fetchToken at h
  split at h
  · cases h
  · next T hT =>
    obtain ⟨hr, hb⟩ := srcFetch_eq_ok.1 hT
    refine ⟨T, hr, hb, ?_⟩
    split at h
    · next hh =>
      split at h
      · cases h
      · next V hV =>
        obtain ⟨hr', rfl⟩ := srcFetch_eq_ok.1 hV
        cases h
        exact .inr ⟨hh, hr', rfl⟩
    · next hh => cases h; exact .inl ⟨by simpa using hh, rfl⟩

/-- A run header starts a RUN with the length in its low six bits. -/
theorem tokenOf_run {T : Byte} (h : isRunHeader T = true) (V : Byte) : tokenOf T V = .run (T.extractLsb' 0 6) V := by
  have ht : tokenTag T = 0b11#2 := by simpa [isRunHeader] using h
  simp [tokenOf, ht]

/-- Any other byte starts a literal that is the byte. -/
theorem tokenOf_lit {T : Byte} (h : isRunHeader T = false) (V : Byte) :
    tokenOf T V = .lit00 T ∨ tokenOf T V = .lit01 T ∨ tokenOf T V = .lit10 T := by
  have ht : tokenTag T ≠ 0b11#2 := by simpa [isRunHeader] using h
  have hall : ∀ t : BitVec 2, t ≠ 0b11#2 → t = 0b00#2 ∨ t = 0b01#2 ∨ t = 0b10#2 := by decide
  rcases hall _ ht with e | e | e <;> simp [tokenOf, e]

/-! ### What only the decoder's own state changes -/

/-- `t` differs from `s` in the decoder's part only: SRC_PTR, RUN_CNT, RUN_VAL and the pulled pixel. -/
structure DecoderOnly (s t : State) : Prop where
  cfg : t.cfg = s.cfg
  par : t.par = s.par
  err : t.err = s.err
  warn : t.warn = s.warn
  pixelValid : t.pixelValid = s.pixelValid
  pixelValue : t.pixelValue = s.pixelValue
  pendValid : t.pendValid = s.pendValid
  pendByte : t.pendByte = s.pendByte
  src : t.src = s.src
  dev : t.dev = s.dev
  faulted : t.faulted = s.faulted
  inbox : t.inbox = s.inbox
  readData : t.readData = s.readData
  sinkLog : t.sinkLog = s.sinkLog
  puller : t.puller = s.puller

theorem DecoderOnly.refl (s : State) : DecoderOnly s s := by constructor <;> rfl

theorem DecoderOnly.trans {s t u : State} (h : DecoderOnly s t) (k : DecoderOnly t u) : DecoderOnly s u := by
  constructor
  exacts [k.cfg.trans h.cfg, k.par.trans h.par, k.err.trans h.err, k.warn.trans h.warn, k.pixelValid.trans h.pixelValid,
    k.pixelValue.trans h.pixelValue, k.pendValid.trans h.pendValid, k.pendByte.trans h.pendByte, k.src.trans h.src,
    k.dev.trans h.dev, k.faulted.trans h.faulted, k.inbox.trans h.inbox, k.readData.trans h.readData,
    k.sinkLog.trans h.sinkLog, k.puller.trans h.puller]

theorem DecoderOnly.readable {s t : State} (h : DecoderOnly s t) (off : Nat) : Readable t off ↔ Readable s off := by
  simp [Readable, h.cfg, h.par]

/-! ### Running a fetched token -/

/-- A token run by the pull is the token run by `exec`. -/
theorem runToken_eq_exec {i : Instr} (h : i.isToken = true) (s : State) : runToken i s = exec i s := by
  cases i <;> first | rfl | simp [Instr.isToken] at h

/-- Everything a fetched token can do: yield a pixel, be an empty run, or run over the budget. -/
theorem runToken_cases {s : State} {i : Instr} (hf : fetchToken s = .ok i) :
    (∃ p t, runToken i s = .next t ∧ DecoderOnly s t ∧ t.pulled = some p ∧
      (t.runCnt = s.runCnt ∨ t.runCnt.toNat ≤ 62) ∧
      (t.srcPtr = s.srcPtr + 1#32 ∨ (t.srcPtr = s.srcPtr + 2#32 ∧ Readable s (s.srcPtr.toNat + 1)))) ∨
    (∃ v, i = .run 0#6 v ∧ Readable s (s.srcPtr.toNat + 1) ∧
      runToken i s = .next { s with srcPtr := s.srcPtr + 2#32 }) ∨
    (∃ n v, i = .run n v ∧ overBudget s.puller n = true ∧
      runToken i s = stopCommand (if s.par.chk = true then .error .runOverrun else .fault .runOverrun) s) := by
  obtain ⟨T, hr, hT, ⟨hh, rfl⟩ | ⟨hh, hr', rfl⟩⟩ := fetchToken_eq_ok hf
  · left
    refine ⟨T, { s with srcPtr := s.srcPtr + 1#32, pulled := some T }, ?_, ?_, rfl, .inl rfl, .inl rfl⟩
    · rcases tokenOf_lit hh 0#8 with e | e | e <;> rw [e] <;> rfl
    · constructor <;> rfl
  · rw [tokenOf_run hh]
    generalize T.extractLsb' 0 6 = n
    generalize Memory.read s.src (s.srcPtr.toNat + 1) = v
    simp only [runToken, execRun]
    by_cases ho : overBudget s.puller n = true
    · exact .inr (.inr ⟨n, v, rfl, ho, by rw [if_pos ho]⟩)
    · rw [if_neg ho]
      by_cases hn : n = 0#6
      · subst hn
        exact .inr (.inl ⟨v, rfl, hr', by simp⟩)
      · rw [if_neg hn]
        refine .inl ⟨v, _, rfl, ⟨rfl, rfl, rfl, rfl, rfl, rfl, rfl, rfl, rfl, rfl, rfl, rfl, rfl, rfl, rfl⟩, rfl, .inr ?_,
          .inr ⟨rfl, hr'⟩⟩
        have : n.toNat ≠ 0 := fun h => hn (by apply BitVec.eq_of_toNat_eq; simpa using h)
        have := n.isLt
        show (n - 1#6).toNat ≤ 62
        rw [BitVec.toNat_sub]
        simp; omega

/-! ### The pull -/

/-- The state a pull stops in when an error ends the command: nothing yielded, no run left, and the token that failed at SRC_PTR. -/
structure PullStops (s u : State) (st : Stop) : Prop where
  only : DecoderOnly s u
  runCnt : u.runCnt = s.runCnt
  runVal : u.runVal = s.runVal
  pulled : u.pulled = s.pulled
  why : fetchToken u = .error st ∨
    ∃ n v, fetchToken u = .ok (.run n v) ∧ overBudget u.puller n = true ∧
      st = (if u.par.chk = true then .error .runOverrun else .fault .runOverrun)

/-- Everything the loop of a pull can do, its fuel being at least that of `pullFuel`: yield a pixel, or stop at a token that
cannot be fetched or runs over the budget. -/
theorem pullLoop_cases (fuel : Nat) : ∀ s : State, s.cfg.srcSize ≤ 2 ^ 32 - 1 → pullFuel s ≤ fuel → s.pulled = none →
    s.puller ≠ .idle →
    (∃ p t, pullLoop fuel s = .next t ∧ DecoderOnly s t ∧ t.pulled = some p ∧
      (t.runCnt = s.runCnt ∨ t.runCnt.toNat ≤ 62) ∧ s.srcPtr.toNat ≤ t.srcPtr.toNat) ∨
    (∃ u st, pullLoop fuel s = stopCommand st u ∧ PullStops s u st ∧ s.srcPtr.toNat ≤ u.srcPtr.toNat) := by
  induction fuel with
  | zero => intro s _ h; simp [pullFuel] at h
  | succ k ih =>
    intro s hsz hfuel hp hpl
    rw [pullLoop]
    cases hf : fetchToken s with
    | error st => exact .inr ⟨s, st, rfl, ⟨DecoderOnly.refl s, rfl, rfl, rfl, .inl hf⟩, le_rfl⟩
    | ok i =>
      have hr : s.srcPtr.toNat < s.cfg.srcSize := by
        obtain ⟨_, hr, _⟩ := fetchToken_eq_ok hf; exact hr.1
      have hadd1 : (s.srcPtr + 1#32).toNat = s.srcPtr.toNat + 1 := by
        rw [BitVec.toNat_add]; simp; omega
      rcases runToken_cases hf with ⟨p, t, hrun, hd, htp, hcnt, hptr⟩ | ⟨v, rfl, hr', hrun⟩ | ⟨n, v, rfl, ho, hrun⟩
      · refine .inl ⟨p, t, ?_, hd, htp, hcnt, ?_⟩
        · simp [hrun, pullOver, htp]
        · rcases hptr with h | ⟨h, hr'⟩
          · rw [h]; omega
          · have := hr'.1
            rw [h, BitVec.toNat_add]; simp; omega
      · have := hr'.1
        have hadd2 : (s.srcPtr + 2#32).toNat = s.srcPtr.toNat + 2 := by
          rw [BitVec.toNat_add]; simp; omega
        have hd : DecoderOnly s { s with srcPtr := s.srcPtr + 2#32 } := by constructor <;> rfl
        have hover : pullOver { s with srcPtr := s.srcPtr + 2#32 } = false := by simp [pullOver, hp, hpl]
        have hgoal : (andThen (runToken (.run 0#6 v) s) fun t => if pullOver t = true then .next t else pullLoop k t) =
            pullLoop k { s with srcPtr := s.srcPtr + 2#32 } := by
          rw [hrun, andThen_next, hover]; rfl
        simp only [hgoal]
        rcases ih { s with srcPtr := s.srcPtr + 2#32 } hsz (by
            simp only [pullFuel, hadd2] at hfuel ⊢; omega) hp hpl with
          ⟨p, t, h1, h2, h3, h4, h5⟩ | ⟨u, st, h1, ⟨h2, h3, h4, h5, h6⟩, h7⟩
        · exact .inl ⟨p, t, h1, hd.trans h2, h3, h4, by simp only [hadd2] at h5; omega⟩
        · exact .inr ⟨u, st, h1, ⟨hd.trans h2, h3, h4, h5, h6⟩, by simp only [hadd2] at h7; omega⟩
      · refine .inr ⟨s, _, ?_, ⟨DecoderOnly.refl s, rfl, rfl, rfl, .inr ⟨n, v, hf, ho, rfl⟩⟩, le_rfl⟩
        simp only [hrun]
        split <;> simp [pullOver]

/-- More fuel than `pullFuel` changes nothing. -/
theorem pullLoop_fuel (k : Nat) : ∀ s : State, s.cfg.srcSize ≤ 2 ^ 32 - 1 → pullFuel s ≤ k → s.pulled = none →
    pullLoop (k + 1) s = pullLoop k s := by
  induction k with
  | zero => intro s _ h; simp [pullFuel] at h
  | succ k ih =>
    intro s hsz hfuel hp
    rw [pullLoop, pullLoop]
    cases hf : fetchToken s with
    | error st => rfl
    | ok i =>
      rcases runToken_cases hf with ⟨p, t, hrun, hd, htp, hcnt, hptr⟩ | ⟨v, rfl, hr', hrun⟩ | ⟨n, v, rfl, ho, hrun⟩
      · simp [hrun, pullOver, htp]
      · have := hr'.1
        have hadd2 : (s.srcPtr + 2#32).toNat = s.srcPtr.toNat + 2 := by
          rw [BitVec.toNat_add]; simp; omega
        simp only [hrun, andThen_next]
        rw [ih { s with srcPtr := s.srcPtr + 2#32 } hsz (by simp only [pullFuel, hadd2] at hfuel ⊢; omega) hp]
      · simp only [hrun]
        split <;> simp [pullOver]

/-- Everything a pull can do (42_rle_decoder.md R143): yield a pixel, or stop at a token that cannot be fetched or runs over the
budget. Only the decoder's own state changes before it ends. -/
theorem nextPixel_cases (s : State) (hsz : s.cfg.srcSize ≤ 2 ^ 32 - 1) (hpl : s.puller ≠ .idle) :
    (∃ p t, nextPixel s = .next t ∧ DecoderOnly s t ∧ t.pulled = some p ∧
      (s.runCnt.toNat ≤ 62 → t.runCnt.toNat ≤ 62) ∧ s.srcPtr.toNat ≤ t.srcPtr.toNat) ∨
    (s.runCnt = 0#6 ∧ ∃ u st, nextPixel s = stopCommand st u ∧ PullStops { s with pulled := none } u st ∧
      s.srcPtr.toNat ≤ u.srcPtr.toNat) := by
  by_cases hc : s.runCnt = 0#6
  · have hn : nextPixel s = pullLoop (pullFuel s) { s with pulled := none } := by rw [nextPixel, if_pos hc]
    have hd : DecoderOnly s { s with pulled := none } := by constructor <;> rfl
    rcases pullLoop_cases (pullFuel s) { s with pulled := none } hsz le_rfl rfl hpl with
      ⟨p, t, h1, h2, h3, h4, h5⟩ | ⟨u, st, h1, h2, h3⟩
    · refine .inl ⟨p, t, hn.trans h1, hd.trans h2, h3, fun _ => ?_, h5⟩
      rcases h4 with h | h
      · simp only [] at h; rw [h, hc]; simp
      · exact h
    · exact .inr ⟨hc, u, st, hn.trans h1, h2, h3⟩
  · refine .inl ⟨s.runVal, { s with runCnt := s.runCnt - 1#6, pulled := some s.runVal }, by rw [nextPixel, if_neg hc],
      by constructor <;> rfl, rfl, fun h => ?_, le_rfl⟩
    have : s.runCnt.toNat ≠ 0 := fun h => hc (by apply BitVec.eq_of_toNat_eq; simpa using h)
    show (s.runCnt - 1#6).toNat ≤ 62
    rw [BitVec.toNat_sub]; simp; omega

end Sys2Proof.Machine
end

