-- ==== Sys2Proof/Laws/Memory.lean ====
section
/-! SUPPORT. The laws of a sparse memory: read after write, and that every write keeps the canonical form and the bound. -/

namespace Sys2Proof.Machine

variable {w : Nat}

@[simp] theorem Memory.read_nil (a : Nat) : Memory.read ([] : Memory w) a = 0#w := rfl

/-- A read of an address below every listed one gives the unlisted value. -/
theorem Memory.read_of_lt (m : Memory w) (a : Nat) (h : ∀ c ∈ m, a < c.1) : Memory.read m a = 0#w := by
  induction m with
  | nil => rfl
  | cons c rest ih =>
    obtain ⟨b, x⟩ := c
    have hb : a < b := h (b, x) (by simp)
    simp only [Memory.read]
    rw [if_neg (by omega)]
    exact ih fun c hc => h c (by simp [hc])

/-- A write leaves every other address alone. -/
theorem Memory.read_write_other (m : Memory w) (a b : Nat) (v : BitVec w) (h : b ≠ a) :
    Memory.read (Memory.write m a v) b = Memory.read m b := by
  induction m with
  | nil => unfold Memory.write; split <;> simp [Memory.read, Ne.symm h]
  | cons c rest ih =>
    obtain ⟨d, x⟩ := c
    simp only [Memory.write]
    split
    · split
      · rfl
      · simp [Memory.read, Ne.symm h]
    · split
      · next hd => subst hd; split <;> simp [Memory.read, Ne.symm h]
      · simp only [Memory.read, ih]

/-- A read gives what the last write to that address put there. -/
theorem Memory.read_write_same (m : Memory w) (a : Nat) (v : BitVec w) (hm : Memory.wf m) :
    Memory.read (Memory.write m a v) a = v := by
  obtain ⟨hs, hz⟩ := hm
  induction m with
  | nil => unfold Memory.write; split <;> simp_all [Memory.read]
  | cons c rest ih =>
    obtain ⟨d, x⟩ := c
    rw [List.pairwise_cons] at hs
    obtain ⟨hd, hrest⟩ := hs
    simp only [Memory.write]
    split
    · next hlt =>
      split
      · next hv =>
        rw [hv]
        refine Memory.read_of_lt _ _ fun c hc => ?_
        rcases List.mem_cons.1 hc with rfl | hc
        · exact hlt
        · exact lt_trans hlt (hd c hc)
      · simp [Memory.read]
    · split
      · next heq =>
        subst heq
        split
        · next hv => rw [hv]; exact Memory.read_of_lt _ _ fun c hc => hd c hc
        · simp [Memory.read]
      · next hne =>
        simp only [Memory.read, if_neg (Ne.symm hne)]
        exact ih hrest fun c hc => hz c (by simp [hc])

/-- Every cell of a written memory is the one written or was there before. -/
theorem Memory.mem_write (m : Memory w) (a : Nat) (v : BitVec w) (c : Nat × BitVec w) (h : c ∈ Memory.write m a v) :
    (c = (a, v) ∧ v ≠ 0#w) ∨ c ∈ m := by
  induction m with
  | nil =>
    unfold Memory.write at h
    split at h
    · simp at h
    · next hv => exact .inl ⟨by simpa using h, hv⟩
  | cons e rest ih =>
    obtain ⟨d, x⟩ := e
    simp only [Memory.write] at h
    split at h
    · split at h
      · exact .inr h
      · next hv =>
        rcases List.mem_cons.1 h with h | h
        · exact .inl ⟨h, hv⟩
        · exact .inr h
    · split at h
      · split at h
        · exact .inr (List.mem_cons_of_mem _ h)
        · next hv =>
          rcases List.mem_cons.1 h with h | h
          · exact .inl ⟨h, hv⟩
          · exact .inr (List.mem_cons_of_mem _ h)
      · rcases List.mem_cons.1 h with h | h
        · exact .inr (by simp [h])
        · rcases ih h with h | h
          · exact .inl h
          · exact .inr (List.mem_cons_of_mem _ h)

/-- A write keeps the canonical form. -/
theorem Memory.wf_write (m : Memory w) (a : Nat) (v : BitVec w) (hm : Memory.wf m) : Memory.wf (Memory.write m a v) := by
  refine ⟨?_, fun c hc => ?_⟩
  · obtain ⟨hs, -⟩ := hm
    induction m with
    | nil => unfold Memory.write; split <;> simp
    | cons e rest ih =>
      obtain ⟨d, x⟩ := e
      have hs' := List.pairwise_cons.1 hs
      simp only [Memory.write]
      split
      · next hlt =>
        split
        · exact hs
        · refine List.pairwise_cons.2 ⟨fun c hc => ?_, hs⟩
          rcases List.mem_cons.1 hc with rfl | hc
          · exact hlt
          · exact lt_trans hlt (hs'.1 c hc)
      · split
        · next heq =>
          subst heq
          split
          · exact hs'.2
          · exact List.pairwise_cons.2 ⟨fun c hc => hs'.1 c hc, hs'.2⟩
        · refine List.pairwise_cons.2 ⟨fun c hc => ?_, ih hs'.2⟩
          rcases Memory.mem_write _ _ _ _ hc with ⟨rfl, -⟩ | hc
          · simp; omega
          · exact hs'.1 c hc
  · rcases Memory.mem_write _ _ _ _ hc with ⟨rfl, hv⟩ | hc
    · exact hv
    · exact hm.2 c hc

/-- A write below the bound keeps every address below it. -/
theorem Memory.below_write (m : Memory w) (a size : Nat) (v : BitVec w) (ha : a < size) (hm : Memory.below m size) :
    Memory.below (Memory.write m a v) size := by
  intro c hc
  rcases Memory.mem_write _ _ _ _ hc with ⟨rfl, -⟩ | hc
  · exact ha
  · exact hm c hc

end Sys2Proof.Machine
end

