-- ==== Sys2Proof/Laws/Devices.lean ====
section
/-! SUPPORT. The devices under sink operations: they stay well formed, and a trace grows by what is issued. -/

namespace Sys2Proof.Machine

/-- The devices' part of the invariant between steps. -/
structure DevicesWf (c : Config) (d : Devices) : Prop where
  wrCursor : d.wrCursor < c.vramWords
  vramWf : Memory.wf d.vram
  vramBelow : Memory.below d.vram c.vramWords
  palWf : Memory.wf d.pal
  palBelow : Memory.below d.pal palEntries

theorem Config.vramWords_pos (c : Config) : 0 < c.vramWords := Nat.two_pow_pos _

/-- Every sink operation keeps the devices well formed. -/
theorem DevicesWf.apply {c : Config} {d : Devices} (h : DevicesWf c d) (op : SinkOp) : DevicesWf c (d.apply c op) := by
  cases op with
  | vramSetCursor a => exact { h with wrCursor := Nat.mod_lt _ (Config.vramWords_pos c) }
  | vramWrite v =>
    exact { h with
      wrCursor := Nat.mod_lt _ (Config.vramWords_pos c)
      vramWf := Memory.wf_write _ _ _ h.vramWf
      vramBelow := Memory.below_write _ _ _ _ h.wrCursor h.vramBelow }
  | vramRead a v => exact h
  | palSetCursor => exact { h with wrCursor := h.wrCursor }
  | palWrite v =>
    exact { h with
      palWf := Memory.wf_write _ _ _ h.palWf
      palBelow := Memory.below_write _ _ _ _ d.palCursor.isLt h.palBelow }

@[simp] theorem replay_nil (c : Config) (d : Devices) : replay c [] d = d := rfl

theorem replay_append (c : Config) (xs ys : List SinkOp) (d : Devices) :
    replay c (xs ++ ys) d = replay c ys (replay c xs d) := by simp [replay, List.foldl_append]

@[simp] theorem trace_issue (op : SinkOp) (s : State) : (issue op s).trace = s.trace ++ [op] := by
  simp [State.trace]

/-- A state's devices are those of `d` after its trace, and its trace's reads were right. -/
structure Replays (d : Devices) (s : State) : Prop where
  dev : s.dev = replay s.cfg s.trace d
  reads : readsRight s.cfg s.trace d

theorem readsRight_append (c : Config) (xs ys : List SinkOp) (d : Devices) :
    readsRight c (xs ++ ys) d ↔ readsRight c xs d ∧ readsRight c ys (replay c xs d) := by
  induction xs generalizing d with
  | nil => simp [readsRight]
  | cons op rest ih => simp [readsRight, ih, replay, and_assoc]

/-- Issuing an operation other than a read keeps the account. -/
theorem Replays.issue {d : Devices} {s : State} (h : Replays d s) (op : SinkOp)
    (hop : ∀ a v, op = .vramRead a v → v = s.dev.vramRead s.cfg a) : Replays d (issue op s) := by
  constructor
  · rw [trace_issue, replay_append]
    simp [replay]
    rw [h.dev]; rfl
  · rw [trace_issue, readsRight_append]
    refine ⟨h.reads, ?_⟩
    have hd : replay (Sys2Proof.Machine.issue op s).cfg s.trace d = s.dev := h.dev.symm
    rw [hd]
    cases op <;> simp [readsRight]
    exact hop _ _ rfl

end Sys2Proof.Machine
end

