-- ==== Sys2Proof/Laws/Faults.lean ====
section
/-! SUPPORT. How an instruction can stop, said once: by a fault in a marked state that it has reached, and never by a refusal. -/

namespace Sys2Proof.Machine

/-- The outcome is no refusal, and a fault of it stops in a state that carries its mark (60_exceptions.md R203). -/
structure Orderly (r : Result) : Prop where
  marked : ∀ f, r = .fault f → ∃ c u, f = faultAt c (markFault c u)
  unrefused : ∀ x, r ≠ .refused x

theorem Orderly.next (s : State) : Orderly (.next s) := ⟨nofun, nofun⟩

theorem Orderly.takeFault (c : FaultCause) (s : State) : Orderly (takeFault c s) :=
  ⟨fun _ h => ⟨c, s, takeFault_eq_fault.1 h⟩, takeFault_ne_refused c s⟩

theorem Orderly.stopCommand (st : Stop) (s : State) : Orderly (stopCommand st s) := by
  cases st with
  | error e => exact .next _
  | fault c => exact .takeFault c s

theorem Orderly.andThen {r : Result} {f : State → Result} (h : Orderly r) (hf : ∀ s, Orderly (f s)) :
    Orderly (andThen r f) := by
  cases r with
  | next s => exact hf s
  | fault x => exact ⟨fun g hg => h.marked g hg, nofun⟩
  | refused x => exact absurd rfl (h.unrefused x)

theorem execRun_orderly (n : BitVec 6) (v : Byte) (s : State) : Orderly (execRun n v s) := by
  unfold execRun
  split
  · exact .stopCommand _ _
  · split <;> exact .next _

/-- A token of the stream, as `fetchToken` gives it, runs to an orderly outcome. -/
theorem runToken_orderly {i : Instr} (h : i.isToken = true) (s : State) : Orderly (runToken i s) := by
  cases i with
  | lit00 T => exact .next _
  | lit01 T => exact .next _
  | lit10 T => exact .next _
  | run n v => exact execRun_orderly n v s
  | _ => cases h

/-- A fetched token is a token. -/
theorem fetchToken_isToken {s : State} {i : Instr} (h : fetchToken s = .ok i) : i.isToken = true := by
  obtain ⟨T, -, -, ⟨-, rfl⟩ | ⟨-, -, rfl⟩⟩ := fetchToken_eq_ok h <;> exact tokenOf_isToken _ _

theorem pullLoop_orderly (fuel : Nat) : ∀ s : State, Orderly (pullLoop fuel s) := by
  induction fuel with
  | zero => exact fun s => .takeFault _ s
  | succ k ih =>
    intro s
    rw [pullLoop]
    cases hf : fetchToken s with
    | error st => exact .stopCommand _ _
    | ok i =>
      refine (runToken_orderly (fetchToken_isToken hf) s).andThen fun t => ?_
      split
      · exact .next _
      · exact ih t

theorem nextPixel_orderly (s : State) : Orderly (nextPixel s) := by
  unfold nextPixel
  split
  · exact pullLoop_orderly _ _
  · exact .next _

theorem drawPixels_orderly (left : Nat) : ∀ s : State, Orderly (drawPixels left s) := by
  induction left with
  | zero => exact .next
  | succ k ih =>
    intro s
    refine (nextPixel_orderly _).andThen fun t => ?_
    split
    · exact .next _
    · exact ih _

theorem drawRows_orderly (left : Nat) : ∀ (y : Nat) (s : State), Orderly (drawRows left y s) := by
  induction left with
  | zero => exact fun _ => .next
  | succ k ih =>
    intro y s
    refine (drawPixels_orderly _ _).andThen fun t => ?_
    split
    · exact .next _
    · exact ih _ _

theorem execConvertPalette_orderly (s : State) : Orderly (execConvertPalette s) := by
  unfold execConvertPalette
  dsimp only
  split
  · exact .stopCommand _ _
  · split
    · exact .stopCommand _ _
    · split
      · exact .stopCommand _ _
      · split
        · exact .next _
        · exact .stopCommand _ _

/-- Every instruction: no refusal, and a fault only in a marked state. -/
theorem exec_orderly (i : Instr) (s : State) : Orderly (exec i s) := by
  cases i with
  | nop => exact .next _
  | convertPalette => exact execConvertPalette_orderly s
  | drawImage => exact (drawRows_orderly _ _ _).andThen fun _ => .next _
  | drawLine => exact .next _
  | decodePixel => exact (nextPixel_orderly _).andThen fun _ => .next _
  | lit00 T => exact .next _
  | lit01 T => exact .next _
  | lit10 T => exact .next _
  | run n v => exact execRun_orderly n v s

end Sys2Proof.Machine
end

