-- ==== Sys2Proof/Laws/Image.lean ====
section
/-! SUPPORT. What DRAW_IMAGE can do, said once: an induction principle over its pulls, packings and scanlines, and the shape of its
stops. -/

namespace Sys2Proof.Machine

/-- A property that every part of DRAW_IMAGE keeps: pulls, packing, `raise`, and the scanlines' starts and ends. -/
structure ImageClosed (P : State → Prop) : Prop where
  size : ∀ a, P a → a.cfg.srcSize ≤ 2 ^ 32 - 1
  pull : ∀ a b, P a → DecoderOnly a b → a.srcPtr.toNat ≤ b.srcPtr.toNat → (a.runCnt.toNat ≤ 62 → b.runCnt.toNat ≤ 62) → P b
  arm : ∀ a n, P a → P { a with puller := .drawImage n }
  pack : ∀ a p, P a → P (packPixel p a)
  raise : ∀ a e, P a → P (raiseError e a)
  start : ∀ a y, P a → P (startScanline y a)
  finish : ∀ a, P a → P (endScanline a)

/-- Dropping the pulled pixel is a change of the decoder's own state. -/
theorem DecoderOnly.drop_pulled (a : State) : DecoderOnly a { a with pulled := none } := by constructor <;> rfl

theorem ImageClosed.packPulled {P : State → Prop} (h : ImageClosed P) {a : State} (ha : P a) :
    P (Sys2Proof.Machine.packPulled a) := by
  unfold Sys2Proof.Machine.packPulled
  split
  · exact h.pack _ _ (h.pull _ _ ha (DecoderOnly.drop_pulled a) le_rfl id)
  · exact ha

/-- A pull keeps a closed property, however it ends. -/
theorem ImageClosed.nextPixel {P : State → Prop} (h : ImageClosed P) {a t : State} (ha : P a) (hp : a.puller ≠ .idle)
    (ht : Sys2Proof.Machine.nextPixel a = .next t) : P t := by
  rcases nextPixel_cases a (h.size a ha) hp with ⟨p, u, h1, h2, -, h4, h5⟩ | ⟨hc, u, st, h1, h2, h3⟩
  · rw [h1] at ht; cases ht
    exact h.pull _ _ ha h2 h5 h4
  · rw [h1] at ht
    cases st with
    | fault f => simp at ht
    | error e =>
      simp at ht; subst ht
      refine h.raise _ _ (h.pull _ _ ha ((DecoderOnly.drop_pulled a).trans h2.only) h3 ?_)
      rw [h2.runCnt]; exact id

theorem ImageClosed.drawPixels {P : State → Prop} (h : ImageClosed P) (left : Nat) :
    ∀ {a t : State}, P a → Sys2Proof.Machine.drawPixels left a = .next t → P t := by
  induction left with
  | zero => intro a t ha ht; cases ht; exact ha
  | succ k ih =>
    intro a t ha ht
    obtain ⟨u, h1, h2⟩ := andThen_eq_next.1 ht
    have hu := h.nextPixel (h.arm a _ ha) (by simp) h1
    split at h2
    · cases h2; exact hu
    · exact ih (h.packPulled hu) h2

theorem ImageClosed.drawRows {P : State → Prop} (h : ImageClosed P) (left : Nat) :
    ∀ (y : Nat) {a t : State}, P a → Sys2Proof.Machine.drawRows left y a = .next t → P t := by
  induction left with
  | zero => intro y a t ha ht; cases ht; exact ha
  | succ k ih =>
    intro y a t ha ht
    obtain ⟨u, h1, h2⟩ := andThen_eq_next.1 ht
    have hu := h.drawPixels _ (h.start a y ha) h1
    split at h2
    · cases h2; exact hu
    · exact ih (y + 1) (h.finish u hu) h2

/-- Whatever DRAW_IMAGE answers next, its scanlines ended in a state with every closed property, and `endImage` followed. -/
theorem ImageClosed.execDrawImage {P : State → Prop} (h : ImageClosed P) {s t : State} (hs : P (beginImage s))
    (ht : Sys2Proof.Machine.execDrawImage s = .next t) : ∃ u, P u ∧ t = endImage u := by
  obtain ⟨u, h1, h2⟩ := andThen_eq_next.1 ht
  cases h2
  exact ⟨u, h.drawRows _ 0 hs h1, rfl⟩

/-! ### Stops -/

/-- A scanline that has no next state stopped in one of its pulls, in a state with every closed property. -/
theorem ImageClosed.drawPixels_stops {P : State → Prop} (h : ImageClosed P) (left : Nat) :
    ∀ {a : State} {r : Result}, P a → Sys2Proof.Machine.drawPixels left a = r → (∀ t, r ≠ .next t) →
      ∃ b, P b ∧ b.puller ≠ .idle ∧ Sys2Proof.Machine.nextPixel b = r := by
  induction left with
  | zero => intro a r _ hr hn; exact absurd hr.symm (hn a)
  | succ k ih =>
    intro a r ha hr hn
    have harm := h.arm a (k + 1) ha
    rw [Sys2Proof.Machine.drawPixels] at hr
    cases hx : Sys2Proof.Machine.nextPixel { a with puller := .drawImage (k + 1) } with
    | fault f => rw [hx] at hr; exact ⟨_, harm, by simp, hx.trans hr⟩
    | refused f => rw [hx] at hr; exact ⟨_, harm, by simp, hx.trans hr⟩
    | next u =>
      rw [hx, andThen_next] at hr
      split at hr
      · exact absurd hr.symm (hn u)
      · exact ih (h.packPulled (h.nextPixel harm (by simp) hx)) hr hn

/-- DRAW_IMAGE's scanlines that have no next state stopped in one of their pulls. -/
theorem ImageClosed.drawRows_stops {P : State → Prop} (h : ImageClosed P) (left : Nat) :
    ∀ (y : Nat) {a : State} {r : Result}, P a → Sys2Proof.Machine.drawRows left y a = r → (∀ t, r ≠ .next t) →
      ∃ b, P b ∧ b.puller ≠ .idle ∧ Sys2Proof.Machine.nextPixel b = r := by
  induction left with
  | zero => intro y a r _ hr hn; exact absurd hr.symm (hn a)
  | succ k ih =>
    intro y a r ha hr hn
    rw [Sys2Proof.Machine.drawRows] at hr
    have hstart := h.start a y ha
    cases hx : Sys2Proof.Machine.drawPixels a.par.width.toNat (startScanline y a) with
    | fault f => rw [hx] at hr; exact h.drawPixels_stops _ hstart (hx.trans hr) hn
    | refused f => rw [hx] at hr; exact h.drawPixels_stops _ hstart (hx.trans hr) hn
    | next u =>
      rw [hx, andThen_next] at hr
      split at hr
      · exact absurd hr.symm (hn u)
      · exact ih (y + 1) (h.finish u (h.drawPixels _ hstart hx)) hr hn

end Sys2Proof.Machine
end

