-- ==== Sys2Proof/Laws/PerInstr.lean ====
section
/-! SUPPORT. The per-instruction family RoundTrip: one lemma per constructor of Instr. -/

namespace Sys2Proof.Laws.RoundTrip

/-- An encoded well-formed instruction decodes to itself, and a token's bytes decode to it whatever stands after them. -/
def Statement (i : Instr) : Prop :=
  i.wellFormed = true → decode (encode i) = .ok i ∧
    (i.isToken = true → ∀ rest : List Byte, decodeToken (tokenBytes i ++ rest) = .ok (i, rest))

theorem nop : Statement .nop := fun _ => ⟨rfl, nofun⟩

theorem convertPalette : Statement .convertPalette := fun _ => ⟨rfl, nofun⟩

theorem drawImage : Statement .drawImage := fun _ => ⟨rfl, nofun⟩

theorem drawLine : Statement .drawLine := fun _ => ⟨rfl, nofun⟩

theorem decodePixel : Statement .decodePixel := fun _ => ⟨rfl, nofun⟩

/-- A byte with tag 00, 01 or 10 is no run header and stands for the literal of its row. -/
theorem literal_token (v : Byte) :
    (tokenTag v = 0b00#2 → isRunHeader v = false ∧ tokenOf v 0#8 = .lit00 v) ∧
    (tokenTag v = 0b01#2 → isRunHeader v = false ∧ tokenOf v 0#8 = .lit01 v) ∧
    (tokenTag v = 0b10#2 → isRunHeader v = false ∧ tokenOf v 0#8 = .lit10 v) := by
  refine ⟨?_, ?_, ?_⟩ <;> intro h <;> simp [isRunHeader, tokenOf, h]

/-- A one-byte token decodes from its byte, whatever stands after it. -/
theorem decodeToken_literal {v : Byte} {i : Instr} (h : isRunHeader v = false) (hi : tokenOf v 0#8 = i) (rest : List Byte) :
    decodeToken (v :: rest) = .ok (i, rest) := by
  simp [decodeToken, h, hi]

theorem lit00 (value : Byte) : Statement (.lit00 value) := by
  intro hw
  obtain ⟨h, hi⟩ := (literal_token value).1 (by simpa [Instr.wellFormed] using hw)
  exact ⟨by simp [decode, encode, tokenBytes, decodeToken_literal h hi], fun _ => decodeToken_literal h hi⟩

theorem lit01 (value : Byte) : Statement (.lit01 value) := by
  intro hw
  obtain ⟨h, hi⟩ := (literal_token value).2.1 (by simpa [Instr.wellFormed] using hw)
  exact ⟨by simp [decode, encode, tokenBytes, decodeToken_literal h hi], fun _ => decodeToken_literal h hi⟩

theorem lit10 (value : Byte) : Statement (.lit10 value) := by
  intro hw
  obtain ⟨h, hi⟩ := (literal_token value).2.2 (by simpa [Instr.wellFormed] using hw)
  exact ⟨by simp [decode, encode, tokenBytes, decodeToken_literal h hi], fun _ => decodeToken_literal h hi⟩

/-- The header of an encoded run is a run header with the run's length. -/
theorem run_header (n : BitVec 6) : isRunHeader (0b11#2 ++ n) = true ∧ (0b11#2 ++ n).extractLsb' 0 6 = n := by
  revert n; decide

theorem run (length : BitVec 6) (fill : Byte) : Statement (.run length fill) := by
  intro _
  obtain ⟨h, hn⟩ := run_header length
  have hd : ∀ rest : List Byte, decodeToken (tokenBytes (.run length fill) ++ rest) = .ok (.run length fill, rest) := by
    intro rest
    simp [decodeToken, tokenBytes, h, Machine.tokenOf_run h, hn]
  have h0 : decodeToken (tokenBytes (.run length fill)) = .ok (.run length fill, []) := by simpa using hd []
  exact ⟨by simp [decode, encode, h0], fun _ => hd⟩

end Sys2Proof.Laws.RoundTrip
end

