-- ==== Sys2Proof/Tests/Slice0.lean ====
section
/-! SUPPORT. Tests: ill-formed terms the check refuses, words written out from the spec's encodings, one-step vectors of
95_test_vectors.md (each test names its vector), and a witness for every statement that has hypotheses. -/

namespace Sys2Proof.Machine.Tests

/-! ### Small states -/

/-- Bytes in source memory from an offset on. -/
def placeBytes (off : Nat) : List Byte → Memory 8 → Memory 8
  | [], m => m
  | b :: rest, m => placeBytes (off + 1) rest (Memory.write m off b)

/-- After reset, with 16 words of VRAM and 8 bytes of source memory: these bytes at offset 0, their number in SRC_LEN. -/
def small (bytes : List Byte) : State :=
  { State.reset with
    cfg := { Config.standard with addrW := 4, srcSize := 8 }
    par := { Params.reset with srcLen := BitVec.ofNat 32 bytes.length }
    src := placeBytes 0 bytes [] }

/-- The same with the image geometry. -/
def image (bytes : List Byte) (width height stride : Half) : State :=
  { small bytes with
    par := { (small bytes).par with width := width, height := height, stride := stride } }

/-- The same with a line. -/
def line (x0 y0 x1 y1 : Half) (color : Byte) : State :=
  { small [] with
    par := { (small []).par with stride := 4#16, x0 := x0, y0 := y0, x1 := x1, y1 := y1, color := color } }

/-- In unchecked mode. -/
def unchecked (s : State) : State := { s with par := { s.par with chk := false } }

/-- With the host's transactions pending. -/
def queued (s : State) (q : List HostTxn) : State := { s with inbox := q }

/-- Exactly 769 bytes of source memory, of which `len` are valid, with this marker at offset 0. -/
def block (marker : Byte) (len : Word) : State :=
  { small [] with
    cfg := { Config.standard with srcSize := 769 }
    par := { Params.reset with srcLen := len }
    src := placeBytes 0 [marker] [] }

/-- The outcome is a next state of which `p` holds. -/
def nextWith (r : Result) (p : State → Bool) : Bool :=
  match r with
  | .next t => p t
  | .fault _ => false
  | .refused _ => false

/-- The outcome is a fault of this cause, in a state of which `p` holds. -/
def faultWith (r : Result) (c : FaultCause) (p : State → Bool) : Bool :=
  match r with
  | .next _ => false
  | .fault f => decide (f.cause = c) && p f.state
  | .refused _ => false

theorem exists_next {r : Result} {p : State → Bool} (h : nextWith r p = true) : ∃ t, r = .next t ∧ p t = true := by
  cases r with
  | next t => exact ⟨t, rfl, h⟩
  | fault _ => cases h
  | refused _ => cases h

theorem exists_fault {r : Result} {c : FaultCause} {p : State → Bool} (h : faultWith r c p = true) :
    ∃ u, r = .fault (faultAt c u) ∧ p u = true := by
  cases r with
  | next _ => cases h
  | fault f =>
    obtain ⟨hc, hp⟩ := Bool.and_eq_true_iff.1 h
    exact ⟨f.state, by rw [← of_decide_eq_true hc, faultAt_cause_state], hp⟩
  | refused _ => cases h

theorem ready_small (bytes : List Byte) (q : List HostTxn) : (queued (small bytes) q).Ready :=
  ⟨rfl, show Config.legal { Config.standard with addrW := 4, srcSize := 8 } = true by decide⟩

/-- SourceHolds over a concrete list, as a check. -/
def holdsCheck (s : State) (bs : List Byte) : Bool :=
  (List.range bs.length).all fun k =>
    decide (s.srcPtr.toNat + k < s.cfg.srcSize) && (!s.par.chk || decide (s.srcPtr.toNat + k < s.par.srcLen.toNat)) &&
      decide (bs[k]? = some (Memory.read s.src (s.srcPtr.toNat + k)))

theorem sourceHolds_of_check {s : State} {bs : List Byte} (h : holdsCheck s bs = true) : SourceHolds s bs := by
  intro k hk
  have hb := List.all_eq_true.1 h k (List.mem_range.2 hk)
  simp only [Bool.and_eq_true, Bool.or_eq_true, Bool.not_eq_true', decide_eq_true_eq] at hb
  obtain ⟨⟨h1, h2⟩, h3⟩ := hb
  refine ⟨⟨h1, fun hc => h2.resolve_left (by simp [hc])⟩, ?_⟩
  rw [List.getElem?_eq_getElem hk] at h3
  exact (Option.some.inj h3).symm

/-! ### Ill-formed terms (30_encoding.md R84) -/

theorem test_lit00_outside_its_row_refused : (Instr.lit00 0x40#8).wellFormed = false := by decide
theorem test_lit01_outside_its_row_refused : (Instr.lit01 0x80#8).wellFormed = false := by decide
theorem test_lit10_run_header_refused : (Instr.lit10 0xC0#8).wellFormed = false := by decide

/-! ### Decoding (30_encoding.md R81 to R86) -/

theorem test_decode_nop : (decode (.command 0b0000000000000000000000000000_0000#32)).toOption = some .nop := by decide
theorem test_decode_convertPalette :
    (decode (.command 0b0000000000000000000000000000_0001#32)).toOption = some .convertPalette := by decide
theorem test_decode_drawImage :
    (decode (.command 0b0000000000000000000000000000_0010#32)).toOption = some .drawImage := by decide
theorem test_decode_drawLine :
    (decode (.command 0b0000000000000000000000000000_0011#32)).toOption = some .drawLine := by decide
theorem test_decode_decodePixel :
    (decode (.command 0b0000000000000000000000000000_0100#32)).toOption = some .decodePixel := by decide
theorem test_decode_lit00 : (decode (.token [0b00_101010#8])).toOption = some (.lit00 0x2A#8) := by decide
theorem test_decode_lit01 : (decode (.token [0b01_000000#8])).toOption = some (.lit01 0x40#8) := by decide
theorem test_decode_lit10 : (decode (.token [0b10_111111#8])).toOption = some (.lit10 0xBF#8) := by decide
theorem test_decode_run :
    (decode (.token [0b11_000011#8, 0b00000101#8])).toOption = some (.run 3#6 0x05#8) := by decide
/-- Vectors D-2 to D-5: reserved words. -/
theorem test_decode_reserved_words :
    (decode (.command 0x00000007#32)).toOption = none ∧ (decode (.command 0x0000000F#32)).toOption = none ∧
    (decode (.command 0x00000012#32)).toOption = none ∧ (decode (.command 0x80000001#32)).toOption = none := by decide

/-! ### One step of each instruction -/

/-- Vector D-1. -/
theorem test_nop_clears_status :
    nextWith (step ({ small [] with err := 2#4, warn := true }.withFetchWord 32 0)) (fun t =>
      decide (readReg 0x02#8 t = 0#32)) = true := by decide

/-- Vector D-4: OP = 2 with RSV ≠ 0 does not run DRAW_IMAGE. -/
theorem test_reserved_bits_report_badCommand :
    nextWith (step ((image [1#8, 2#8] 2#16 1#16 0#16).withFetchWord 32 0x12)) (fun t =>
      decide (readReg 0x02#8 t = 4#32 ∧ t.trace = [] ∧ t.srcPtr = 0#32)) = true := by decide

/-- Vectors P-2 and P-6: entry 1 = (0x12, 0x34, 0x56), entry 5 black and not transparent. -/
theorem test_convertPalette_entries :
    plainEntry 0x12#8 0x34#8 0x56#8 = 0x0135#16 ∧ taggedEntry Config.standard 1 0x12#8 0x34#8 0x56#8 = 0xC135#16 ∧
    taggedEntry Config.standard 5 0#8 0#8 0#8 = 0xC000#16 := by decide

/-- Vectors P-11 and P-12: the order of the checks. -/
theorem test_convertPalette_checks :
    nextWith (exec .convertPalette (block 0x00#8 768#32)) (fun t => decide (t.err = 2#4 ∧ t.trace = [])) = true ∧
    faultWith (exec .convertPalette
      (unchecked { block 0x0C#8 769#32 with par := { (block 0x0C#8 769#32).par with palPtr := 1#32 } })) .srcRange
      (fun u => decide (u.trace = [])) = true := by decide

/-- Vector K-7: an odd width drops the last pixel of each row with a warning. -/
theorem test_drawImage_odd_width :
    nextWith (exec .drawImage (image [1#8, 2#8, 3#8, 4#8, 5#8, 6#8] 3#16 2#16 2#16)) (fun t =>
      decide (t.trace = [.vramSetCursor 0, .vramWrite 0x0102#16, .vramSetCursor 2, .vramWrite 0x0405#16] ∧
        readReg 0x02#8 t = 0x10#32 ∧ t.srcPtr = 6#32)) = true := by decide

/-- Vector K-5: a run over the budget is not consumed. -/
theorem test_drawImage_run_overrun :
    nextWith (exec .drawImage (image [1#8, 0xC4#8, 2#8] 4#16 1#16 0#16)) (fun t =>
      decide (t.trace = [.vramSetCursor 0] ∧ readReg 0x02#8 t = 3#32 ∧ t.srcPtr = 1#32)) = true := by decide

/-- Vectors L-3 and L-7. -/
theorem test_drawLine_points :
    linePoints (line 0#16 0#16 3#16 2#16 0#8).par = [(0, 0), (1, 1), (2, 1), (3, 2)] ∧
    linePoints (line 2#16 0#16 0#16 3#16 0#8).par = [(2, 0), (1, 1), (1, 2), (0, 3)] := by decide

/-- Vector L-12: the second Plot reads the first one's write. -/
theorem test_drawLine_two_pixels_of_a_word :
    nextWith (exec .drawLine (line 0#16 0#16 1#16 0#16 0x09#8)) (fun t =>
      decide (t.trace = [.vramRead 0 0x0000#16, .vramSetCursor 0, .vramWrite 0x0900#16,
        .vramRead 0 0x0900#16, .vramSetCursor 0, .vramWrite 0x0909#16] ∧ t.dev.wrCursor = 1)) = true := by decide

/-- Vector R-8: the zero run is consumed. -/
theorem test_decodePixel_skips_zero_run :
    nextWith (exec .decodePixel (small [0xC0#8, 0x77#8, 0x10#8])) (fun t =>
      decide (readReg 0x11#8 t = 0x110#32 ∧ t.srcPtr = 3#32 ∧ readReg 0x12#8 t = 0#32)) = true := by decide

/-- Vector R-12: a truncated run header is not consumed. -/
theorem test_decodePixel_truncated_run :
    nextWith (exec .decodePixel (small [0xC3#8])) (fun t =>
      decide (readReg 0x11#8 t = 0#32 ∧ t.srcPtr = 0#32 ∧ readReg 0x02#8 t = 2#32)) = true := by decide

/-- Vector R-1, as the first step after reset. -/
theorem test_lit00_step :
    nextWith (step (State.reset.withFetchWord 8 0x2A)) (fun t =>
      decide (readReg 0x11#8 t = 0x12A#32 ∧ t.srcPtr = 1#32 ∧ t.err = 0#4)) = true := by decide

/-- Vector R-3. -/
theorem test_lit01_step :
    nextWith (step (State.reset.withFetchWord 8 0x40)) (fun t =>
      decide (readReg 0x11#8 t = 0x140#32 ∧ t.srcPtr = 1#32 ∧ t.err = 0#4)) = true := by decide

/-- Vector R-5. -/
theorem test_lit10_step :
    nextWith (step (State.reset.withFetchWord 8 0xBF)) (fun t =>
      decide (readReg 0x11#8 t = 0x1BF#32 ∧ t.srcPtr = 1#32 ∧ t.err = 0#4)) = true := by decide

/-- Vector R-6. -/
theorem test_run_step :
    nextWith (step (State.reset.withFetchWord 16 0xC305)) (fun t =>
      decide (readReg 0x11#8 t = 0x105#32 ∧ t.srcPtr = 2#32 ∧ readReg 0x12#8 t = 0x0502#32)) = true := by decide

/-- Vector K-13: over the budget in unchecked mode; the operation issued before the fault is in the faulted run's trace. -/
theorem test_run_overrun_unchecked :
    faultWith (exec .drawImage (unchecked (image [0xC6#8, 1#8] 4#16 1#16 0#16))) .runOverrun
      (fun u => decide (u.trace = [.vramSetCursor 0] ∧ u.faulted = some .runOverrun)) = true := by decide

/-! ### Witnesses: states and operands that meet each statement's hypotheses -/

theorem witness_DecodeEncodeAgree :
    (Instr.lit10 0xBF#8).wellFormed = true ∧ decode (.token [0xC3#8, 0x05#8]) = .ok (.run 3#6 0x05#8) := ⟨by decide, rfl⟩

theorem witness_TokenFormsByMask : 0xC0#8 &&& 0xC0#8 = 0xC0#8 ∧ 0xBF#8 &&& 0xC0#8 ≠ 0xC0#8 := by decide

theorem witness_ResetSetsRegistersOnly :
    let s := queued (small [1#8]) [.reset]
    s.Ready ∧ s.inbox = .reset :: [] := ⟨ready_small _ _, rfl⟩

theorem witness_CommandsAfterResetReportEof :
    (small [1#8]).cfg.legal = true ∧ (1#16 : Half) ≠ 0#16 ∧ (0xFFFF#16 : Half) ≠ 0#16 := by decide

/-- The first, a middle and the last row of the list. -/
theorem witness_RegisterReadsBackImplementedBits :
    let s := fun n => queued (small []) [.writeReg n 0xFFFFFFFF#32, .readReg n]
    let rows := fun c : Config => [((0x00#8 : Byte), (1#32 : Word)), (0x03#8, 0xFFFFFFFF#32), (0x04#8, 0xFFFFFFFF#32),
      (0x05#8, 0xFFFFFFFF#32), (0x06#8, BitVec.ofNat 32 (2 ^ c.addrW - 1)), (0x07#8, 0xFFFF#32), (0x08#8, 0xFFFF#32),
      (0x09#8, 0xFFFF#32), (0x0A#8, 0xFFFF#32), (0x0B#8, 0xFFFF#32), (0x0C#8, 0xFFFF#32), (0x0D#8, 0xFFFF#32),
      (0x0E#8, 0xFFFF#32), (0x0F#8, 0xFFFF#32), (0x10#8, 0xFF#32)]
    (∀ n, (s n).Ready ∧ (s n).inbox = .writeReg n 0xFFFFFFFF#32 :: .readReg n :: []) ∧
    (0x00#8, 1#32) ∈ rows (s 0x00#8).cfg ∧ (0x06#8, 15#32) ∈ rows (s 0x06#8).cfg ∧ (0x10#8, 0xFF#32) ∈ rows (s 0x10#8).cfg :=
  ⟨fun _ => ⟨ready_small _ _, rfl⟩, by decide, by decide, by decide⟩

theorem witness_ReadOnlyAndReservedIgnoreWrites :
    let w := fun n => queued (small []) [.writeReg n 5#32]
    let r := fun n => queued (small []) [.readReg n]
    ((w 0x02#8).Ready ∧ (w 0x02#8).inbox = .writeReg 0x02#8 5#32 :: []) ∧
    ((w 0x13#8).Ready ∧ 0x13 ≤ (0x13#8 : Byte).toNat ∧ (w 0x13#8).inbox = .writeReg 0x13#8 5#32 :: []) ∧
    ((r 0xFF#8).Ready ∧ 0x13 ≤ (0xFF#8 : Byte).toNat ∧ (r 0xFF#8).inbox = .readReg 0xFF#8 :: []) ∧
    ((r 0x01#8).Ready ∧ (r 0x01#8).inbox = .readReg 0x01#8 :: []) :=
  ⟨⟨ready_small _ _, rfl⟩, ⟨ready_small _ _, by decide, rfl⟩, ⟨ready_small _ _, by decide, rfl⟩, ⟨ready_small _ _, rfl⟩⟩

theorem witness_RegisterWriteChangesOnlyThatRegister :
    let w := fun n => queued (small []) [.writeReg n 5#32]
    ((w 0x03#8).Ready ∧ (0x03#8 : Byte) ≠ 0x01#8 ∧ (w 0x03#8).inbox = .writeReg 0x03#8 5#32 :: []) ∧
    ((w 0x10#8).Ready ∧ (0x10#8 : Byte) ≠ 0x01#8 ∧ (w 0x10#8).inbox = .writeReg 0x10#8 5#32 :: []) :=
  ⟨⟨ready_small _ _, by decide, rfl⟩, ⟨ready_small _ _, by decide, rfl⟩⟩

theorem witness_RegisterWritesCommute :
    (0x03#8 : Byte) ≠ 0x00#8 ∧ (0x03#8 : Byte) ≠ 0x01#8 ∧ (0x00#8 : Byte) ≠ 0x01#8 := by decide

theorem witness_ReadsAndIdleStepsChangeNothing :
    (queued (small []) [.readReg 0x12#8]).Ready ∧ (queued (small []) [.readReg 0x12#8]).inbox = .readReg 0x12#8 :: [] ∧
    (queued (small []) []).Ready ∧ (queued (small []) []).inbox = [] :=
  ⟨ready_small _ _, rfl, ready_small _ _, rfl⟩

theorem witness_HostLoadIsSeenByLaterReads :
    let s := queued (small [1#8]) [.loadSrc 7 5#8]
    s.Ready ∧ Memory.wf s.src ∧ 7 < s.cfg.srcSize ∧ s.inbox = .loadSrc 7 5#8 :: [] :=
  ⟨ready_small _ _, by decide, by decide, rfl⟩

theorem witness_LoadFilePutsBytesAndLength :
    let file : List Byte := [1#8, 2#8, 3#8, 4#8, 5#8, 6#8, 7#8, 8#8]
    let s := queued (small [9#8]) (loadFile file)
    s.Ready ∧ Memory.wf s.src ∧ file.length ≤ s.cfg.srcSize ∧ s.inbox = loadFile file :=
  ⟨ready_small _ _, by decide, by decide, rfl⟩

theorem witness_HostDeviceUseLeavesTheBlock :
    (∀ q, (queued (small []) q).Ready) ∧
    (queued (small []) [.vramSetCursor 16]).inbox = .vramSetCursor 16 :: [] ∧
    (queued (small []) [.vramWrite 5#16]).inbox = .vramWrite 5#16 :: [] ∧
    (queued (small []) [.vramRead 17]).inbox = .vramRead 17 :: [] ∧
    (queued (small []) [.palSetCursor]).inbox = .palSetCursor :: [] ∧
    (queued (small []) [.palWrite 5#16]).inbox = .palWrite 5#16 :: [] :=
  ⟨ready_small _, rfl, rfl, rfl, rfl, rfl⟩

/-- A DECODE_PIXEL at SRC_SIZE in unchecked mode. -/
def pastMemory : State := queued (unchecked { small [] with srcPtr := 8#32 }) [.writeReg 0x01#8 4#32]

theorem witness_FaultMarkIsNeverCleared :
    (pastMemory.faulted = none ∧ ∃ u, step pastMemory = .fault (faultAt .srcRange u) ∧ decide (u.inbox = []) = true) ∧
    (advance pastMemory).faulted = some .srcRange :=
  ⟨⟨rfl, exists_fault (by decide)⟩, by decide⟩

theorem witness_IllegalConfigurationIsRefused :
    (small []).faulted = none ∧ (0x0001#16 : Half) &&& 0x0FFF#16 ≠ 0#16 ∧ 255 < 256 ∧
    { (small []).cfg with srcSize := 0 }.srcSize = 0 ∧ 2 ^ 32 ≤ { (small []).cfg with srcSize := 2 ^ 32 }.srcSize ∧
    State.reset.cfg.legal = true := by decide

theorem witness_StepRunsDecodedCommand :
    let s := queued (small []) [.writeReg 0x01#8 4#32]
    s.Ready ∧ s.inbox = .writeReg 0x01#8 4#32 :: [] ∧ decodeCommand 4#32 = .ok .decodePixel ∧
    decodeTableWord 32 0 = some .nop := ⟨ready_small _ _, rfl, rfl, by decide⟩

theorem witness_ReservedWordReportsBadCommand :
    let s := fun w => queued (small []) [.writeReg 0x01#8 w]
    (∀ w, (s w).Ready ∧ (s w).inbox = .writeReg 0x01#8 w :: []) ∧
    (0x00000010#32 : Word).toNat / 16 ≠ 0 ∧ 0x5 ≤ (0x00000005#32 : Word).toNat % 16 ∧ 0x5 ≤ (0x0000000F#32 : Word).toNat % 16 :=
  ⟨fun _ => ⟨ready_small _ _, rfl⟩, by decide, by decide, by decide⟩

theorem witness_SrcFetchChecksThenReads :
    let s := small [1#8]
    let u := unchecked s
    (s.par.chk = true ∧ s.par.srcLen.toNat ≤ 1) ∧ (u.par.chk = false ∧ u.cfg.srcSize ≤ 8) ∧
    (0 < s.par.srcLen.toNat ∧ 0 < s.cfg.srcSize) ∧ (u.par.chk = false ∧ 7 < u.cfg.srcSize) := by decide

theorem witness_RunYieldsFillByte :
    let s : State := { small [] with puller := .drawImage 3 }
    (∀ budget, s.puller = .drawImage budget → (3#6 : BitVec 6).toNat ≤ budget) ∧ (3#6 : BitVec 6) ≠ 0#6 ∧
    (∀ budget, s.puller = .drawImage budget → (0#6 : BitVec 6).toNat ≤ budget) := by
  refine ⟨?_, by decide, ?_⟩ <;> intro b h <;> cases h <;> decide

theorem witness_RunOverBudgetIsNotConsumed :
    let s : State := { small [] with puller := .drawImage 2 }
    s.puller = .drawImage 2 ∧ 2 < (3#6 : BitVec 6).toNat ∧ s.par.chk = true ∧ (unchecked s).par.chk = false := by decide

theorem witness_PullRunsFetchedTokens :
    let s : State := { small [5#8] with puller := .decodePixel }
    let e : State := { small [] with puller := .decodePixel }
    (s.cfg.legal = true ∧ s.puller ≠ .idle ∧ s.runCnt = 0#6 ∧ fetchToken { s with pulled := none } = .ok (.lit00 5#8)) ∧
    (e.runCnt = 0#6 ∧ fetchToken { e with pulled := none } = .error (.error .unexpectedEof)) ∧
    ({ s with runCnt := 1#6 } : State).runCnt ≠ 0#6 :=
  ⟨⟨by decide, by decide, rfl, rfl⟩, ⟨rfl, rfl⟩, by decide⟩

theorem witness_StepPullsTheTokenAtTheCursor :
    SourceHolds (small [0xC3#8, 5#8]) (tokenBytes (.run 3#6 5#8)) ∧ (Instr.run 3#6 5#8).isToken = true ∧
    (let s : State := { small [] with srcPtr := 6#32 }
     s.Ready ∧ Memory.wf s.src ∧ s.srcPtr.toNat + 2 ≤ s.cfg.srcSize ∧ decodeTableWord 16 0xC305 = some (.run 3#6 5#8) ∧
     decodeTableWord 8 0x2A = some (.lit00 0x2A#8)) :=
  ⟨sourceHolds_of_check (by decide), rfl, ⟨rfl, by decide⟩, by decide, by decide, by decide, by decide⟩

theorem witness_TokenFrame :
    (∃ t, exec (.lit01 0x40#8) (small []) = .next t ∧ t.err = 0#4) ∧
    (∃ t, exec (.run 3#6 5#8) { small [] with puller := .drawImage 2 } = .next t ∧ t.err = 3#4) :=
  ⟨⟨_, rfl, rfl⟩, ⟨_, rfl, rfl⟩⟩

theorem witness_DecodePixelTakesRestOfRun : ({ small [] with runCnt := 1#6 } : State).runCnt ≠ 0#6 := by decide

theorem witness_DecodePixelDecodesOneToken :
    let s := small [0xFF#8, 7#8]
    s.cfg.legal = true ∧ s.runCnt = 0#6 ∧ (Instr.run 63#6 7#8).wellFormed = true ∧
    (tokenPixels (.run 63#6 7#8)).head? = some 7#8 ∧ SourceHolds s (tokenBytes (.run 63#6 7#8)) :=
  ⟨by decide, rfl, rfl, by decide, sourceHolds_of_check (by decide)⟩

theorem witness_DecodePixelSkipsEmptyRuns :
    let s := small [0xC0#8, 0x77#8, 0xC0#8, 0x01#8]
    s.cfg.legal = true ∧ s.runCnt = 0#6 ∧
    SourceHolds s ([0x77#8, 0x01#8].flatMap fun v => tokenBytes (.run 0#6 v)) :=
  ⟨by decide, rfl, sourceHolds_of_check (by decide)⟩

theorem witness_DecodePixelReportsEof :
    ((small []).runCnt = 0#6 ∧ TokenPastLen (small []) (small []).srcPtr.toNat) ∧
    (let s : State := { small [] with srcPtr := 5#32 }
     s.runCnt = 0#6 ∧ s.par.srcLen.toNat < s.srcPtr.toNat ∧ TokenPastLen s s.srcPtr.toNat) ∧
    ((small [0xC0#8]).runCnt = 0#6 ∧ TokenPastLen (small [0xC0#8]) (small [0xC0#8]).srcPtr.toNat) := by decide

/-- One complete scanline of an odd width, then a literal of the next one; `tail` stands after them. -/
def partly (tail : List Byte) : State := image ([1#8, 0xC2#8, 2#8, 3#8] ++ tail) 3#16 2#16 1#16

theorem partly_reaches (s : State) (h : s.par.width = 3#16 ∧ s.par.height = 2#16)
    (hb : holdsCheck s [1#8, 0xC2#8, 2#8, 3#8] = true) : ImageReaches s [[.lit00 1#8, .run 2#6 2#8]] [.lit00 3#8] := by
  refine ⟨by simp [h.2], ?_, by unfold AllTokens; decide, by rw [h.1]; decide, sourceHolds_of_check hb⟩
  intro row hr
  obtain rfl := List.mem_singleton.1 hr
  rw [h.1]
  exact ⟨by unfold AllTokens; decide, by decide, by simp⟩

theorem witness_ReadsPastSourceMemoryFault :
    (let s := unchecked { small [] with srcPtr := 8#32 }
     s.runCnt = 0#6 ∧ TokenPastMemory s s.srcPtr.toNat) ∧
    (let s : State := { small [0#8, 0#8, 0#8, 0#8, 0#8, 0#8, 0#8, 0xC1#8, 0#8] with srcPtr := 7#32 }
     s.runCnt = 0#6 ∧ s.par.chk = true ∧ TokenPastMemory s s.srcPtr.toNat) ∧
    (let rows : List (List Instr) := [[.lit00 1#8, .run 2#6 2#8]]
     let ts : List Instr := [.lit00 3#8]
     let s : State := { unchecked (partly []) with cfg := { Config.standard with srcSize := 4 } }
     let h : State := { unchecked (partly [0xC1#8]) with cfg := { Config.standard with srcSize := 5 } }
     (s.cfg.legal = true ∧ ImageReaches s rows ts ∧ TokenPastMemory s (reachedOffset s rows ts)) ∧
     (h.cfg.legal = true ∧ ImageReaches h rows ts ∧ TokenPastMemory h (reachedOffset h rows ts))) ∧
    (let s : State := { block 0x0C#8 770#32 with par := { Params.reset with srcLen := 770#32, palPtr := 1#32 } }
     s.cfg.srcSize < s.par.palPtr.toNat + 769 ∧ (s.par.chk = true → s.par.palPtr.toNat + 769 ≤ s.par.srcLen.toNat)) :=
  ⟨by decide, by decide, ⟨⟨by decide, partly_reaches _ ⟨rfl, rfl⟩ (by decide), by decide⟩,
    ⟨by decide, partly_reaches _ ⟨rfl, rfl⟩ (by decide), by decide⟩⟩, by decide⟩

theorem witness_DecodePixelsYieldTheStream :
    let ts : List Instr := [.run 2#6 5#8, .run 0#6 9#8, .lit00 0x2A#8]
    let s := small (streamBytes ts)
    2 < (streamPixels ts).length ∧ s.cfg.legal = true ∧ AllTokens ts ∧ s.runCnt = 0#6 ∧ SourceHolds s (streamBytes ts) :=
  ⟨by decide, by decide, by unfold AllTokens; decide, rfl, sourceHolds_of_check (by decide)⟩

theorem witness_DecodePixelFrame :
    (small [5#8]).cfg.legal = true ∧ (∃ t, exec .decodePixel (small [5#8]) = .next t ∧ decide (t.err = 0#4) = true) ∧
    (∃ t, exec .decodePixel (small []) = .next t ∧ decide (t.err = 2#4) = true) :=
  ⟨by decide, exists_next (by decide), exists_next (by decide)⟩

theorem witness_DrawImageDrawsItsScanlines :
    let rows : List (List Instr) := [[.lit00 1#8, .run 2#6 5#8], [.run 3#6 9#8]]
    let s := image (streamBytes rows.flatten) 3#16 2#16 1#16
    s.cfg.legal = true ∧ rows.length = s.par.height.toNat ∧ (∀ ts ∈ rows, ScanlineTokens s.par.width.toNat ts) ∧
    SourceHolds s (streamBytes rows.flatten) := by
  refine ⟨by decide, rfl, ?_, sourceHolds_of_check (by decide)⟩
  intro ts h
  rcases List.mem_cons.1 h with rfl | h
  · exact ⟨by unfold AllTokens; decide, by decide, by simp⟩
  · obtain rfl := List.mem_singleton.1 h
    exact ⟨by unfold AllTokens; decide, by decide, by simp⟩

theorem witness_EmptyImageDrawsNothing :
    (image [1#8] 4#16 0#16 4#16).par.height = 0#16 ∧ (image [1#8] 0#16 3#16 4#16).par.width = 0#16 := by decide

theorem witness_DrawImageStopsAtTheFailingToken :
    let rows : List (List Instr) := [[.lit00 1#8, .run 2#6 2#8]]
    let ts : List Instr := [.lit00 3#8]
    let long := partly [0xC3#8, 9#8]
    (long.cfg.legal = true ∧ ImageReaches long rows ts ∧ ImageReaches (unchecked long) rows ts ∧
      SourceHolds long (streamBytes (rows.flatten ++ ts ++ [.run 3#6 9#8])) ∧
      SourceHolds (unchecked long) (streamBytes (rows.flatten ++ ts ++ [.run 3#6 9#8])) ∧
      long.par.width.toNat < (streamPixels ts).length + (3#6 : BitVec 6).toNat ∧ long.par.chk = true ∧
      (unchecked long).par.chk = false) ∧
    (ImageReaches (partly []) rows ts ∧ TokenPastLen (partly []) (reachedOffset (partly []) rows ts)) ∧
    (ImageReaches (partly [0xC1#8]) rows ts ∧ TokenPastLen (partly [0xC1#8]) (reachedOffset (partly [0xC1#8]) rows ts)) ∧
    (let s : State := { image [1#8] 2#16 1#16 0#16 with srcPtr := 3#32 }
     ImageReaches s [] [] ∧ s.par.srcLen.toNat < s.srcPtr.toNat ∧ TokenPastLen s (reachedOffset s [] [])) :=
  ⟨⟨by decide, partly_reaches _ ⟨rfl, rfl⟩ (by decide), partly_reaches _ ⟨rfl, rfl⟩ (by decide),
    sourceHolds_of_check (by decide), sourceHolds_of_check (by decide), by decide, rfl, rfl⟩,
   ⟨partly_reaches _ ⟨rfl, rfl⟩ (by decide), by decide⟩, ⟨partly_reaches _ ⟨rfl, rfl⟩ (by decide), by decide⟩,
   ⟨⟨by decide, nofun, by unfold AllTokens; decide, by decide, sourceHolds_of_check (by decide)⟩, by decide, by decide⟩⟩

theorem witness_DrawImageErrorLeavesSrcPtrAtToken :
    (∃ t, exec .drawImage (image [1#8] 2#16 1#16 0#16) = .next t ∧ decide (t.err = 2#4) = true) ∧
    (∃ t, exec .drawImage (image [1#8, 0xC2#8, 2#8] 2#16 1#16 0#16) = .next t ∧ decide (t.err = 3#4) = true) ∧
    (∃ t, exec .drawImage (image [0xC2#8, 2#8] 2#16 1#16 0#16) = .next t ∧ decide (t.err = 0#4) = true) :=
  ⟨exists_next (by decide), exists_next (by decide), exists_next (by decide)⟩

/-- Word 3 is outside the image's only word, word 0. -/
theorem witness_DrawImageFrame :
    let s := image [1#8, 2#8] 2#16 1#16 0#16
    s.cfg.legal = true ∧ (∃ t, exec .drawImage s = .next t ∧ decide (t.dev.vram ≠ s.dev.vram) = true) ∧
    (∀ y < s.par.height.toNat, ∀ k < s.par.width.toNat / 2, 3 ≠ (rowStart s.cfg s.par y + k) % 2 ^ s.cfg.addrW) :=
  ⟨by decide, exists_next (by decide), by decide⟩

theorem witness_DrawLineColoursExactlyItsPixels :
    let s := line 0#16 0#16 1#16 0#16 9#8
    s.cfg.legal = true ∧ Memory.wf s.dev.vram ∧ (∃ t, exec .drawLine s = .next t ∧ decide (t.trace.length = 6) = true) ∧
    ((0, 0) ∈ linePoints s.par ∧ plotAddr s.cfg s.par 0 0 = 0) ∧ ((1, 0) ∈ linePoints s.par ∧ plotAddr s.cfg s.par 1 0 = 0) ∧
    (∀ pt ∈ linePoints s.par, plotAddr s.cfg s.par pt.1 pt.2 ≠ 1) :=
  ⟨by decide, by decide, exists_next (by decide), by decide, by decide, by decide⟩

theorem witness_PlotReplacesOnePixelByte : Memory.wf (line 0#16 0#16 1#16 0#16 9#8).dev.vram := by decide

theorem witness_LinePointCountIsMaxPlusOne :
    ∃ t, exec .drawLine (line 0#16 0#16 0#16 0#16 9#8) = .next t ∧ decide (t.trace.length = 3) = true :=
  exists_next (by decide)

theorem witness_LineStaysInRectangle : ⟨3, 2, 1⟩ ∈ linePositions (line 3#16 2#16 0#16 0#16 0#8).par := by decide

theorem witness_SignOfZeroNeverMatters : ((5 : Int) = 5) ∧ ((0 : Int) = 0) := ⟨rfl, rfl⟩

theorem witness_PaletteEntryFormats :
    Config.standard.legal = true ∧ 0 = Config.standard.transparentIndex ∧ 255 ≠ Config.standard.transparentIndex := by decide

theorem witness_ConvertPaletteWritesBothBanks :
    let s := block 0x0C#8 769#32
    s.cfg.legal = true ∧ Memory.wf s.dev.pal ∧ s.par.palPtr.toNat + 769 ≤ s.cfg.srcSize ∧
    (s.par.chk = true → s.par.palPtr.toNat + 769 ≤ s.par.srcLen.toNat) ∧
    Memory.read s.src s.par.palPtr.toNat = 0x0C#8 := by decide

theorem witness_BadSignatureWritesNothing :
    let s := block 0x0A#8 769#32
    s.par.palPtr.toNat + 769 ≤ s.cfg.srcSize ∧ (s.par.chk = true → s.par.palPtr.toNat + 769 ≤ s.par.srcLen.toNat) ∧
    Memory.read s.src s.par.palPtr.toNat ≠ 0x0C#8 := by decide

theorem witness_PaletteRangeCheckComesFirst :
    ((block 0x00#8 768#32).par.chk = true ∧
      (block 0x00#8 768#32).par.srcLen.toNat < (block 0x00#8 768#32).par.palPtr.toNat + 769) ∧
    (unchecked (block 0x0C#8 0#32)).par.chk = false := by decide

theorem witness_NoCommandChangesParameters :
    (small [5#8]).cfg.legal = true ∧ (∃ t, exec .decodePixel (small [5#8]) = .next t ∧ decide (t.srcPtr = 1#32) = true) :=
  ⟨by decide, exists_next (by decide)⟩

theorem witness_EachCommandWritesOnlyItsOwnState :
    (small []).cfg.legal = true ∧ Instr.isToken .drawLine = false ∧
    (∃ t, exec .drawLine (line 0#16 0#16 0#16 0#16 9#8) = .next t ∧ decide (t.dev.wrCursor = 1) = true) ∧
    (∃ t, exec .nop (small []) = .next t ∧ decide (t.err = 0#4) = true) :=
  ⟨by decide, rfl, exists_next (by decide), exists_next (by decide)⟩

theorem witness_NoCommandMovesSrcPtrBack :
    Instr.isToken .drawImage = false ∧ (image [1#8, 2#8] 2#16 1#16 0#16).cfg.legal = true ∧
    (∃ t, exec .drawImage (image [1#8, 2#8] 2#16 1#16 0#16) = .next t ∧ decide (t.srcPtr = 2#32) = true) :=
  ⟨rfl, by decide, exists_next (by decide)⟩

theorem witness_DevicesAreTheReplayedTrace :
    Instr.isToken .drawLine = false ∧ (line 0#16 0#16 1#16 0#16 9#8).cfg.legal = true ∧
    (∃ t, exec .drawLine (line 0#16 0#16 1#16 0#16 9#8) = .next t ∧ decide (t.trace.length = 6) = true) :=
  ⟨rfl, by decide, exists_next (by decide)⟩

theorem witness_UncheckedModeIgnoresSrcLen : (unchecked (small [5#8])).par.chk = false := by decide

theorem witness_CheckedModeNeverFaults :
    let s : State := { small [] with par := { Params.reset with srcLen := 8#32 } }
    s.cfg.legal = true ∧ s.par.chk = true ∧ s.par.srcLen.toNat ≤ s.cfg.srcSize := by decide

theorem witness_FaultsAreThoseOfTheTable :
    (unchecked (small [])).cfg.legal = true ∧
    (∃ u, exec (.run 3#6 5#8) (unchecked { small [] with puller := .drawImage 2 }) = .fault (.runOverrun u)) ∧
    (∃ u, exec .decodePixel (unchecked { small [] with srcPtr := 8#32 }) = .fault (faultAt .srcRange u) ∧
      decide (u.trace = []) = true) :=
  ⟨by decide, ⟨_, rfl⟩, exists_fault (by decide)⟩

theorem witness_StepKeepsInvariant :
    let s := queued (small [5#8]) [.writeReg 0x01#8 4#32]
    s.Inv ∧ ∃ t, step s = .next t ∧ decide (t.pixelValue = 5#8) = true := by
  refine ⟨?_, exists_next (by decide)⟩
  constructor <;> decide

end Sys2Proof.Machine.Tests
end

section
/-! PROOFS. Scope (00_scope.md): the configurations of R6, and the trace of R9 as the account of the devices (20_memory.md R60). -/

namespace Sys2Proof

/-! ### Configurations -/

/-- R6 and log 7, one bound per parameter. -/
theorem Config.legal_iff (c : Config) :
    c.legal = true ↔ 1 ≤ c.addrW ∧ c.addrW ≤ 32 ∧ 1 ≤ c.srcSize ∧ c.srcSize ≤ 2 ^ 32 - 1 ∧
      c.tag &&& 0x0FFF#16 = 0#16 ∧ c.transparentIndex ≤ 255 := by
  simp only [Config.legal, Bool.and_eq_true, decide_eq_true_eq, and_assoc]

/-- A legal configuration's SRC_SIZE is a 32-bit number. -/
theorem Config.srcSize_le_of_legal {c : Config} (h : c.legal = true) : c.srcSize ≤ 2 ^ 32 - 1 := by
  obtain ⟨-, -, -, hsize, -, -⟩ := c.legal_iff.1 h
  exact hsize

/-- A configuration with a value outside R6's table is not legal. -/
theorem Config.not_legal_of_excluded {c : Config}
    (h : c.tag &&& 0x0FFF#16 ≠ 0#16 ∨ 255 < c.transparentIndex ∨ c.srcSize = 0 ∨ 2 ^ 32 ≤ c.srcSize) :
    ¬ c.legal = true := by
  intro hl
  obtain ⟨-, -, hpos, hsize, htag, hindex⟩ := c.legal_iff.1 hl
  rcases h with h | h | h | h
  · exact h htag
  all_goals omega

end Sys2Proof

namespace Sys2Proof.Machine

/-! ### What a step refuses -/

/-- A command word is never refused, whatever it holds. -/
theorem dispatchCommand_ne_refused (w : Word) (s : State) (x : Refusal) : dispatchCommand w s ≠ .refused x := by
  unfold dispatchCommand
  split
  · exact (exec_orderly _ s).unrefused x
  · nofun

theorem writeReg_ne_refused (n : Byte) (d : Word) (s : State) (x : Refusal) : writeReg n d s ≠ .refused x := by
  unfold writeReg
  split
  · exact dispatchCommand_ne_refused d s x
  · nofun

/-- The only refusal of a load of source memory is that of an offset outside it. -/
theorem loadSrc_ne_illegalConfig (off : Nat) (b : Byte) (s : State) : loadSrc off b s ≠ .refused .illegalConfig := by
  unfold loadSrc
  split <;> simp

/-- No host transaction is refused for its configuration. -/
theorem runTxn_ne_illegalConfig (t : HostTxn) (s : State) : runTxn t s ≠ .refused .illegalConfig := by
  cases t with
  | writeReg n d => exact writeReg_ne_refused n d s _
  | loadSrc off b => exact loadSrc_ne_illegalConfig off b s
  | _ => nofun

theorem takeTxn_ne_illegalConfig (s : State) : takeTxn s ≠ .refused .illegalConfig := by
  unfold takeTxn
  split
  · nofun
  · exact runTxn_ne_illegalConfig _ _

/-- R6: an unmarked machine refuses a step as illegal exactly when its configuration is not legal. -/
theorem step_eq_illegalConfig_iff {s : State} (hf : s.faulted = none) :
    step s = .refused .illegalConfig ↔ ¬ s.cfg.legal = true := by
  simp only [step, hf]
  split
  · next hl => simp [hl, takeTxn_ne_illegalConfig]
  · next hl => simp [hl]

/-- Settles O17: the refusal is exactly that of an illegal configuration in an unmarked machine, and a marked machine's step is its fault. -/
theorem illegalConfigurationIsRefused : Obligations.IllegalConfigurationIsRefused := by
  unfold Obligations.IllegalConfigurationIsRefused
  refine ⟨fun s hf h => (step_eq_illegalConfig_iff hf).2 (Config.not_legal_of_excluded h), by decide, fun s hl => ?_⟩
  cases hf : s.faulted with
  | none => exact fun h => (step_eq_illegalConfig_iff hf).1 h hl
  | some c => simp [step, hf]

/-! ### The trace accounts for the devices -/

/-- `u` is reached within a command that began at `s`: same configuration, and its devices are those of `s` after its trace, whose
reads were right. -/
structure Accounts (s u : State) : Prop where
  cfg : u.cfg = s.cfg
  replays : Replays s.dev u

/-- The account speaks of the configuration, the devices and the trace only. -/
theorem Accounts.of_eq {s u v : State} (h : Accounts s u) (hc : v.cfg = u.cfg) (hd : v.dev = u.dev)
    (hl : v.sinkLog = u.sinkLog) : Accounts s v := by
  have ht : v.trace = u.trace := by simp [State.trace, hl]
  exact ⟨hc.trans h.cfg, by rw [hd, hc, ht]; exact h.replays.dev, by rw [hc, ht]; exact h.replays.reads⟩

/-- A command begins with an empty trace. -/
theorem Accounts.beginCommand (s : State) : Accounts s (beginCommand s) := ⟨rfl, rfl, trivial⟩

theorem Accounts.issue {s u : State} (h : Accounts s u) (op : SinkOp)
    (hop : ∀ a v, op = .vramRead a v → v = u.dev.vramRead u.cfg a) : Accounts s (issue op u) :=
  ⟨h.cfg, h.replays.issue op hop⟩

theorem Accounts.issueVramRead {s u : State} (h : Accounts s u) (a : Nat) : Accounts s (issueVramRead a u) :=
  h.issue _ fun _ _ e => by cases e; rfl

theorem Accounts.raiseError {s u : State} (h : Accounts s u) (e : ErrorCode) : Accounts s (raiseError e u) :=
  h.of_eq (raiseError_cfg e u) (raiseError_dev e u) (raiseError_sinkLog e u)

/-- A stop that is no fault is a reported error, which issues nothing. -/
theorem Accounts.stopCommand {s u t : State} (h : Accounts s u) {st : Stop} (ht : stopCommand st u = .next t) :
    Accounts s t := by
  cases st with
  | error e => cases ht; exact h.raiseError e
  | fault c => cases ht

/-! ### Each command keeps the account -/

theorem Accounts.packPixel {s u : State} (h : Accounts s u) (p : Byte) : Accounts s (packPixel p u) := by
  unfold Sys2Proof.Machine.packPixel
  split
  · exact (h.issue (.vramWrite (packedWord u.pendByte p)) nofun).of_eq rfl rfl rfl
  · exact h.of_eq rfl rfl rfl

/-- Every part of an image keeps the account, pulls among them. -/
theorem Accounts.imageClosed {s : State} (hl : s.cfg.legal = true) : ImageClosed (Accounts s) where
  size _ ha := by rw [ha.cfg]; exact Config.srcSize_le_of_legal hl
  pull _ _ ha hd _ _ := ha.of_eq hd.cfg hd.dev hd.sinkLog
  arm _ _ ha := ha.of_eq rfl rfl rfl
  pack _ p ha := ha.packPixel p
  raise _ e ha := ha.raiseError e
  start _ _ ha := ha.issue _ nofun
  finish a ha := ha.of_eq (endScanline_cfg a) (endScanline_dev a) (endScanline_sinkLog a)

theorem Accounts.latchPixel {s u : State} (h : Accounts s u) : Accounts s (latchPixel u) := by
  unfold Sys2Proof.Machine.latchPixel
  split
  · exact h.of_eq rfl rfl rfl
  · exact h

theorem Accounts.endImage {s u : State} (h : Accounts s u) : Accounts s (endImage u) := by
  unfold Sys2Proof.Machine.endImage
  split
  · exact h
  · exact h.of_eq rfl rfl rfl

theorem Accounts.execDecodePixel {s t : State} (hl : s.cfg.legal = true) (h : execDecodePixel s = .next t) :
    Accounts s t := by
  obtain ⟨u, hpull, hlatch⟩ := andThen_eq_next.1 h
  cases hlatch
  have hstart : Accounts s { Sys2Proof.Machine.beginCommand s with puller := .decodePixel } :=
    (Accounts.beginCommand s).of_eq rfl rfl rfl
  exact ((Accounts.imageClosed hl).nextPixel hstart nofun hpull).latchPixel

theorem Accounts.execDrawImage {s t : State} (hl : s.cfg.legal = true) (h : execDrawImage s = .next t) :
    Accounts s t := by
  have hstart : Accounts s (beginImage s) := (Accounts.beginCommand s).of_eq rfl rfl rfl
  obtain ⟨u, hu, rfl⟩ := (Accounts.imageClosed hl).execDrawImage hstart h
  exact hu.endImage

/-- A Plot reads the word, sets the cursor and writes the word back (R184); its read returns what VRAM holds. -/
theorem Accounts.plot {s u : State} (h : Accounts s u) (c : Byte) (pt : Nat × Nat) : Accounts s (plot c pt u) :=
  ((h.issueVramRead _).issue (.vramSetCursor _) nofun).issue (.vramWrite _) nofun

theorem Accounts.plotAll {s : State} (c : Byte) (pts : List (Nat × Nat)) :
    ∀ {u : State}, Accounts s u → Accounts s (plotAll c pts u) := by
  induction pts with
  | nil => exact id
  | cons pt rest ih => exact fun h => ih (h.plot c pt)

theorem Accounts.palettePass {s : State} (entry : State → Nat → Half) (left : Nat) :
    ∀ (i : Nat) {u : State}, Accounts s u → Accounts s (palettePass entry left i u) := by
  induction left with
  | zero => exact fun _ _ => id
  | succ k ih => exact fun i _ h => ih (i + 1) (h.issue (.palWrite _) nofun)

theorem Accounts.convertBlock {s u : State} (h : Accounts s u) : Accounts s (convertBlock u) := by
  unfold Sys2Proof.Machine.convertBlock
  exact .palettePass blockTagged 256 0 (.palettePass blockPlain 256 0 (h.issue .palSetCursor nofun))

/-- CONVERT_PALETTE converts the whole block or stops before any of it (R120). -/
theorem execConvertPalette_cases (s : State) :
    execConvertPalette s = .next (convertBlock (endPulling (beginCommand s))) ∨
    ∃ st, execConvertPalette s = stopCommand st (endPulling (beginCommand s)) := by
  unfold execConvertPalette
  dsimp only
  split
  · exact .inr ⟨_, rfl⟩
  · split
    · exact .inr ⟨_, rfl⟩
    · split
      · exact .inr ⟨_, rfl⟩
      · split
        · exact .inl rfl
        · exact .inr ⟨_, rfl⟩

theorem Accounts.execConvertPalette {s t : State} (h : execConvertPalette s = .next t) : Accounts s t := by
  have hstart : Accounts s (endPulling (Sys2Proof.Machine.beginCommand s)) :=
    (Accounts.beginCommand s).of_eq rfl rfl rfl
  rcases execConvertPalette_cases s with hconv | ⟨st, hstop⟩
  · rw [← Host.Outcome.next.inj (hconv.symm.trans h)]
    exact hstart.convertBlock
  · exact hstart.stopCommand (hstop.symm.trans h)

/-- R9, R60: whatever a command answers next, its trace accounts for the devices. -/
theorem Accounts.exec {i : Instr} {s t : State} (hl : s.cfg.legal = true) (hi : i.isToken = false)
    (h : exec i s = .next t) : Accounts s t := by
  cases i with
  | nop => cases h; exact .beginCommand s
  | convertPalette => exact .execConvertPalette h
  | drawImage => exact .execDrawImage hl h
  | drawLine => cases h; exact .plotAll _ _ (.beginCommand s)
  | decodePixel => exact .execDecodePixel hl h
  | _ => cases hi

/-- Settles O55: the account of `Accounts.exec`, read in the configuration before the command. -/
theorem devicesAreTheReplayedTrace : Obligations.DevicesAreTheReplayedTrace := by
  unfold Obligations.DevicesAreTheReplayedTrace
  intro i s t hl hi h
  obtain ⟨hcfg, hdev, hreads⟩ := Accounts.exec hl hi h
  rw [hcfg] at hdev hreads
  exact ⟨hdev, hreads⟩

end Sys2Proof.Machine
end

section
/-! PROOFS. What each command leaves alone (10_state.md R27, R36 to R39, R42; 20_memory.md R50): a command's
next state is its own writes to the state before it. -/

namespace Sys2Proof.Machine

variable {b : Bool} {s t u : State} {c : Config} {d : Devices} {op : SinkOp}

/-! ### Commands that only issue sink operations -/

/-- Is it an operation of the palette device (20_memory.md R56), not of VRAM? -/
def SinkOp.isPalette : SinkOp → Bool
  | .vramSetCursor _ => false
  | .vramWrite _ => false
  | .vramRead _ _ => false
  | .palSetCursor => true
  | .palWrite _ => true

theorem Devices.apply_of_isPalette (h : op.isPalette = true) :
    (d.apply c op).vram = d.vram ∧ (d.apply c op).wrCursor = d.wrCursor := by
  cases op with
  | palSetCursor => exact ⟨rfl, rfl⟩
  | palWrite v => exact ⟨rfl, rfl⟩
  | _ => cases h

theorem Devices.apply_of_not_isPalette (h : op.isPalette = false) :
    (d.apply c op).pal = d.pal ∧ (d.apply c op).palCursor = d.palCursor := by
  cases op with
  | vramSetCursor a => exact ⟨rfl, rfl⟩
  | vramWrite v => exact ⟨rfl, rfl⟩
  | vramRead a v => exact ⟨rfl, rfl⟩
  | _ => cases h

/-- `t` is reached from `s` by issuing operations of one device only, the palette's or VRAM's. -/
inductive Issues (palette : Bool) (s : State) : State → Prop
  | refl : Issues palette s s
  | issue {t : State} (h : Issues palette s t) (op : SinkOp) (hop : op.isPalette = palette) : Issues palette s (issue op t)

/-- Only the devices and the trace change. -/
theorem Issues.frame (h : Issues b s t) : ∃ d ops, t = { s with dev := d, sinkLog := ops } := by
  induction h with
  | refl => exact ⟨_, _, rfl⟩
  | issue _ _ _ ih => obtain ⟨d, ops, rfl⟩ := ih; exact ⟨_, _, rfl⟩

theorem Issues.vram_eq (h : Issues true s t) : t.dev.vram = s.dev.vram ∧ t.dev.wrCursor = s.dev.wrCursor := by
  induction h with
  | refl => exact ⟨rfl, rfl⟩
  | issue _ op hop ih =>
    obtain ⟨hvram, hcur⟩ := Devices.apply_of_isPalette hop
    exact ⟨hvram.trans ih.1, hcur.trans ih.2⟩

theorem Issues.pal_eq (h : Issues false s t) : t.dev.pal = s.dev.pal ∧ t.dev.palCursor = s.dev.palCursor := by
  induction h with
  | refl => exact ⟨rfl, rfl⟩
  | issue _ op hop ih =>
    obtain ⟨hpal, hcur⟩ := Devices.apply_of_not_isPalette hop
    exact ⟨hpal.trans ih.1, hcur.trans ih.2⟩

/-- DRAW_LINE's plots use VRAM only (44_line_rasterizer.md R184). -/
theorem Issues.plotAll (c : Byte) (pts : List (Nat × Nat)) :
    ∀ {t : State}, Issues false s t → Issues false s (plotAll c pts t) := by
  induction pts with
  | nil => exact id
  | cons pt rest ih => exact fun h => ih (((h.issue (.vramRead _ _) rfl).issue (.vramSetCursor _) rfl).issue (.vramWrite _) rfl)

theorem Issues.palettePass (entry : State → Nat → Half) (left : Nat) :
    ∀ (i : Nat) {t : State}, Issues true s t → Issues true s (palettePass entry left i t) := by
  induction left with
  | zero => exact fun _ _ => id
  | succ k ih => exact fun i _ h => ih (i + 1) (h.issue (.palWrite _) rfl)

/-- The two passes of CONVERT_PALETTE use the palette device only (41_palette_converter.md R120). -/
theorem issues_convertBlock (s : State) : Issues true s (convertBlock s) := by
  unfold convertBlock
  exact .palettePass blockTagged 256 0 (.palettePass blockPlain 256 0 (Issues.refl.issue .palSetCursor rfl))

/-- DRAW_LINE: STATUS cleared, then VRAM operations. -/
theorem issues_execDrawLine (h : execDrawLine s = .next t) : Issues false (beginCommand s) t := by
  cases h
  exact .plotAll _ _ .refl

/-- CONVERT_PALETTE: STATUS cleared, then palette operations or a reported error. -/
theorem execConvertPalette_eq_next (h : execConvertPalette s = .next t) :
    Issues true (endPulling (beginCommand s)) t ∨ ∃ e, t = setError e (endPulling (beginCommand s)) := by
  rcases execConvertPalette_cases s with hconv | ⟨st, hstop⟩
  · rw [← Host.Outcome.next.inj (hconv.symm.trans h)]
    exact .inl (issues_convertBlock _)
  · cases st with
    | error e => cases hstop.symm.trans h; exact .inr ⟨e, rfl⟩
    | fault c => cases hstop.symm.trans h

/-! ### Commands that pull -/

/-- `raise E` while DECODE_PIXEL pulls clears PIXEL and nothing of the decoder (60_exceptions.md R205). -/
theorem raiseError_of_decodePixel (h : s.puller = .decodePixel) (e : ErrorCode) :
    raiseError e s = endPulling (clearPixel (setError e s)) := by
  simp [raiseError, h]

/-- `raise E` while DRAW_IMAGE pulls leaves no pending pixel (60_exceptions.md R205). -/
theorem raiseError_pendValid_of_drawImage {n : Nat} (h : s.puller = .drawImage n) (e : ErrorCode) :
    (raiseError e s).pendValid = false := by
  simp [raiseError, h]

/-- Outside DECODE_PIXEL an error leaves PIXEL. -/
theorem raiseError_pixel (h : s.puller ≠ .decodePixel) (e : ErrorCode) :
    (raiseError e s).pixelValid = s.pixelValid ∧ (raiseError e s).pixelValue = s.pixelValue := by
  unfold raiseError
  split
  · exact ⟨rfl, rfl⟩
  · next hp => exact absurd hp h
  · exact ⟨rfl, rfl⟩

theorem raiseError_runCnt_le (e : ErrorCode) (s : State) : (raiseError e s).runCnt.toNat ≤ s.runCnt.toNat := by
  unfold raiseError
  split
  · exact le_rfl
  · exact le_rfl
  · exact Nat.zero_le _

/-- A pull that ends in a next state: the decoder's own state has changed, and then it has a pixel or an error was raised. -/
theorem nextPixel_eq_next (hsize : s.cfg.srcSize ≤ 2 ^ 32 - 1) (hp : s.puller ≠ .idle) (h : nextPixel s = .next t) :
    ∃ u, DecoderOnly s u ∧ (s.runCnt.toNat ≤ 62 → u.runCnt.toNat ≤ 62) ∧
      ((t = u ∧ ∃ p, u.pulled = some p) ∨ ∃ e, t = raiseError e u) := by
  rcases nextPixel_cases s hsize hp with ⟨p, u, hn, hd, hpix, hcnt, -⟩ | ⟨-, u, st, hn, hstop, -⟩
  · cases hn.symm.trans h
    exact ⟨t, hd, hcnt, .inl ⟨rfl, p, hpix⟩⟩
  · cases st with
    | fault c => cases hn.symm.trans h
    | error e =>
      cases hn.symm.trans h
      exact ⟨u, (DecoderOnly.drop_pulled s).trans hstop.only, by rw [hstop.runCnt]; exact id, .inr ⟨e, rfl⟩⟩

/-- DECODE_PIXEL: STATUS cleared, the decoder's own state changed by the pull, and PIXEL set or, on an error, cleared (R147). -/
theorem execDecodePixel_eq_next (hl : s.cfg.legal = true) (h : execDecodePixel s = .next t) :
    ∃ u, DecoderOnly { beginCommand s with puller := .decodePixel } u ∧ (s.runCnt.toNat ≤ 62 → u.runCnt.toNat ≤ 62) ∧
      ((∃ p, t = endPulling (setPixel p u)) ∨ ∃ e, t = endPulling (clearPixel (setError e u))) := by
  obtain ⟨v, hpull, hlatch⟩ := andThen_eq_next.1 h
  cases hlatch
  obtain ⟨u, hd, hcnt, ⟨rfl, p, hpix⟩ | ⟨e, rfl⟩⟩ :=
    nextPixel_eq_next (s := { beginCommand s with puller := .decodePixel }) (Config.srcSize_le_of_legal hl) nofun hpull
  · exact ⟨v, hd, hcnt, .inl ⟨p, by simp [latchPixel, hpix]⟩⟩
  · refine ⟨u, hd, hcnt, .inr ⟨e, ?_⟩⟩
    simp [latchPixel, raiseError_of_decodePixel hd.puller]

/-! ### What each command writes -/

/-- `t` is reached within a DRAW_IMAGE begun at `s`, which writes neither PIXEL (10_state.md R36) nor the palette. -/
structure LeftByImage (s t : State) : Prop where
  cfg : t.cfg = s.cfg
  pixelValid : t.pixelValid = s.pixelValid
  pixelValue : t.pixelValue = s.pixelValue
  pal : t.dev.pal = s.dev.pal
  palCursor : t.dev.palCursor = s.dev.palCursor
  puller : t.puller ≠ .decodePixel

theorem LeftByImage.issue (h : LeftByImage s u) (hop : op.isPalette = false) : LeftByImage s (issue op u) := by
  obtain ⟨hpal, hcur⟩ := Devices.apply_of_not_isPalette hop
  exact { h with pal := hpal.trans h.pal, palCursor := hcur.trans h.palCursor }

theorem LeftByImage.packPixel (h : LeftByImage s u) (p : Byte) : LeftByImage s (packPixel p u) := by
  unfold Sys2Proof.Machine.packPixel
  split
  · exact { h.issue (op := .vramWrite (packedWord u.pendByte p)) rfl with }
  · exact { h with }

theorem LeftByImage.endImage (h : LeftByImage s u) : LeftByImage s (endImage u) := by
  unfold Sys2Proof.Machine.endImage
  split
  · exact h
  · exact { h with puller := nofun }

theorem LeftByImage.raiseError (h : LeftByImage s u) (e : ErrorCode) : LeftByImage s (raiseError e u) := by
  obtain ⟨hv, hval⟩ := raiseError_pixel h.puller e
  constructor <;> simp [h.cfg, hv.trans h.pixelValid, hval.trans h.pixelValue, h.pal, h.palCursor]

theorem LeftByImage.imageClosed (hl : s.cfg.legal = true) : ImageClosed (LeftByImage s) where
  size a h := by rw [h.cfg]; exact Config.srcSize_le_of_legal hl
  pull a b h hd _ _ := by
    constructor
    · exact hd.cfg.trans h.cfg
    · exact hd.pixelValid.trans h.pixelValid
    · exact hd.pixelValue.trans h.pixelValue
    · rw [hd.dev]; exact h.pal
    · rw [hd.dev]; exact h.palCursor
    · rw [hd.puller]; exact h.puller
  arm a n h := { h with puller := nofun }
  pack a p h := h.packPixel p
  raise a e h := h.raiseError e
  start a y h := h.issue rfl
  finish a h := by constructor <;> simp [h.cfg, h.pixelValid, h.pixelValue, h.pal, h.palCursor, h.puller]

/-- DRAW_IMAGE writes neither PIXEL nor the palette, whether it completes or reports an error. -/
theorem execDrawImage_leaves (hl : s.cfg.legal = true) (h : execDrawImage s = .next t) : LeftByImage s t := by
  have hbegin : LeftByImage s (beginImage s) := ⟨rfl, rfl, rfl, rfl, rfl, nofun⟩
  obtain ⟨u, hu, rfl⟩ := (LeftByImage.imageClosed hl).execDrawImage hbegin h
  exact hu.endImage

/-- Settles O53: for each command, the lemma that says what its next state can be gives the fields it leaves. -/
theorem eachCommandWritesOnlyItsOwnState : Obligations.EachCommandWritesOnlyItsOwnState := by
  unfold Obligations.EachCommandWritesOnlyItsOwnState
  intro i s t hl hi h
  cases i with
  | nop => cases h; simp
  | convertPalette =>
    rcases execConvertPalette_eq_next h with hissues | ⟨e, rfl⟩
    · have hvram := hissues.vram_eq
      obtain ⟨d, ops, rfl⟩ := hissues.frame
      simpa using hvram
    · simp
  | drawImage =>
    have hleft := execDrawImage_leaves hl h
    simp [hleft.pixelValid, hleft.pixelValue, hleft.pal, hleft.palCursor]
  | drawLine =>
    have hissues := issues_execDrawLine h
    have hpal := hissues.pal_eq
    obtain ⟨d, ops, rfl⟩ := hissues.frame
    simpa using hpal
  | decodePixel =>
    obtain ⟨u, hd, -, ⟨p, rfl⟩ | ⟨e, rfl⟩⟩ := execDecodePixel_eq_next hl h
    all_goals simp [hd.warn, hd.pendValid, hd.pendByte, hd.dev]
  | _ => cases hi

end Sys2Proof.Machine
end

section
/-! PROOFS. The register file (10_state.md R21 to R23, R27) as host transactions read and write it. -/

namespace Sys2Proof.Machine

variable {s : State}

/-! ### The register file -/

/-- 10_state.md R21 to R23, R27: a register write field by field. -/
theorem storeReg_eq (n : Byte) (d : Word) (s : State) : storeReg n d s =
    { s with
      srcPtr := if n.toNat = 0x03 then d else s.srcPtr
      runCnt := if n.toNat = 0x03 then 0#6 else s.runCnt
      runVal := if n.toNat = 0x03 then 0#8 else s.runVal
      par := {
        chk := if n.toNat = 0x00 then d.getLsbD 0 else s.par.chk
        srcLen := if n.toNat = 0x04 then d else s.par.srcLen
        palPtr := if n.toNat = 0x05 then d else s.par.palPtr
        vramBase := if n.toNat = 0x06 then vramBaseBits s.cfg d else s.par.vramBase
        stride := if n.toNat = 0x07 then d.setWidth 16 else s.par.stride
        xpos := if n.toNat = 0x08 then d.setWidth 16 else s.par.xpos
        ypos := if n.toNat = 0x09 then d.setWidth 16 else s.par.ypos
        width := if n.toNat = 0x0A then d.setWidth 16 else s.par.width
        height := if n.toNat = 0x0B then d.setWidth 16 else s.par.height
        x0 := if n.toNat = 0x0C then d.setWidth 16 else s.par.x0
        y0 := if n.toNat = 0x0D then d.setWidth 16 else s.par.y0
        x1 := if n.toNat = 0x0E then d.setWidth 16 else s.par.x1
        y1 := if n.toNat = 0x0F then d.setWidth 16 else s.par.y1
        color := if n.toNat = 0x10 then d.setWidth 8 else s.par.color } } := by
  unfold storeReg
  split <;> simp_all [writeSrcPtr, clearDecoder]

/-- A write that is not one of CMD stores the register. -/
theorem writeReg_of_ne {n : Byte} (h : n ≠ 0x01#8) (d : Word) (s : State) : writeReg n d s = .next (storeReg n d s) :=
  if_neg h

@[simp] theorem storeReg_inbox (n : Byte) (d : Word) (s : State) : (storeReg n d s).inbox = s.inbox := by
  rw [storeReg_eq]

theorem State.Ready.storeReg (h : s.Ready) (n : Byte) (d : Word) : (storeReg n d s).Ready := by
  rw [storeReg_eq]
  exact ⟨h.unfaulted, h.legal⟩

/-- Two register writes with different numbers touch different fields. -/
theorem storeReg_comm {n m : Byte} (h : n ≠ m) (d e : Word) (s : State) :
    storeReg m e (storeReg n d s) = storeReg n d (storeReg m e s) := by
  have hswap : ∀ {α : Type} (k : Nat) (x y z : α),
      (if m.toNat = k then x else if n.toNat = k then y else z) =
        if n.toNat = k then y else if m.toNat = k then x else z := fun k x y _ =>
    ite_ite_comm _ _ x y fun (hm : m.toNat = k) (hn : n.toNat = k) => h (BitVec.eq_of_toNat_eq (hn.trans hm.symm))
  simp only [storeReg_eq, hswap]

/-- 10_state.md R22, R23: a write leaves what every other register reads, but for SRC_PTR's effect on DEC_STATE (R27). -/
theorem readReg_storeReg_of_ne {n m : Byte} (h : m ≠ n) (hdec : ¬(n = 0x03#8 ∧ m = 0x12#8)) (d : Word) (s : State) :
    readReg m (storeReg n d s) = readReg m s := by
  rw [storeReg_eq]
  have hne : n.toNat ≠ m.toNat := fun e => h (BitVec.eq_of_toNat_eq e.symm)
  have hdec' : ¬(n.toNat = 0x03 ∧ m.toNat = 0x12) := fun ⟨hn, hm⟩ =>
    hdec ⟨BitVec.eq_of_toNat_eq hn, BitVec.eq_of_toNat_eq hm⟩
  unfold readReg
  split
  case h_19 hm => simp [decStateWord, show ¬ n.toNat = 0x03 from fun hn => hdec' ⟨hn, hm⟩]
  all_goals simp_all [statusWord, pixelWord]

/-! ### One host transaction per step -/

theorem step_of_inbox_nil (h : s.Ready) (hq : s.inbox = []) : step s = .next s := by
  simp [step, h.unfaulted, h.legal, takeTxn, hq]

theorem step_of_inbox_cons {x : HostTxn} {rest : List HostTxn} (h : s.Ready) (hq : s.inbox = x :: rest) :
    step s = runTxn x { s with inbox := rest } := by
  simp [step, h.unfaulted, h.legal, takeTxn, hq]

theorem step_writeReg {n : Byte} {d : Word} {rest : List HostTxn} (h : s.Ready) (hn : n ≠ 0x01#8)
    (hq : s.inbox = .writeReg n d :: rest) : step s = .next (storeReg n d { s with inbox := rest }) :=
  (step_of_inbox_cons h hq).trans (writeReg_of_ne hn d _)

theorem step_readReg {n : Byte} {rest : List HostTxn} (h : s.Ready) (hq : s.inbox = .readReg n :: rest) :
    step s = .next { s with inbox := rest, readData := readReg n s } :=
  step_of_inbox_cons h hq

/-! ### What a written register reads back -/

/-- A mask of the low `k` bits is the remainder by `2 ^ k`. -/
theorem toNat_and_lowBits {k : Nat} (hk : k ≤ 32) (d : Word) :
    (d &&& BitVec.ofNat 32 (2 ^ k - 1)).toNat = d.toNat % 2 ^ k := by
  have hlt : 2 ^ k - 1 < 2 ^ 32 := (Nat.sub_lt (Nat.two_pow_pos k) one_pos).trans_le (Nat.pow_le_pow_right two_pos hk)
  rw [BitVec.toNat_and, BitVec.toNat_ofNat, Nat.mod_eq_of_lt hlt, Nat.and_two_pow_sub_one_eq_mod]

/-- A register of `k` bits keeps the low `k` bits. -/
theorem setWidth_setWidth_eq_and {k : Nat} (hk : k ≤ 32) (d : Word) :
    (d.setWidth k).setWidth 32 = d &&& BitVec.ofNat 32 (2 ^ k - 1) := by
  apply BitVec.eq_of_toNat_eq
  rw [toNat_and_lowBits hk, BitVec.toNat_setWidth, BitVec.toNat_setWidth]
  exact Nat.mod_eq_of_lt ((Nat.mod_le _ _).trans_lt d.isLt)

theorem vramBaseBits_eq_and {c : Config} (hk : c.addrW ≤ 32) (d : Word) :
    vramBaseBits c d = d &&& BitVec.ofNat 32 (2 ^ c.addrW - 1) := by
  apply BitVec.eq_of_toNat_eq
  rw [toNat_and_lowBits hk, vramBaseBits, BitVec.toNat_ofNat, Config.vramWords]
  exact Nat.mod_eq_of_lt ((Nat.mod_le _ _).trans_lt d.isLt)

theorem setWidth_ofBool_getLsbD_zero (d : Word) : (BitVec.ofBool (d.getLsbD 0)).setWidth 32 = d &&& 1#32 := by
  apply BitVec.eq_of_getLsbD_eq
  intro i hi
  cases i <;> simp

/-- Settles O8: the read gives the stored field, which holds the low bits of the written word. -/
theorem registerReadsBackImplementedBits : Obligations.RegisterReadsBackImplementedBits := by
  unfold Obligations.RegisterReadsBackImplementedBits
  intro s n d bits rest hready hrow hq
  simp only [List.mem_cons, Prod.mk.injEq, List.not_mem_nil, or_false] at hrow
  have hn : n ≠ 0x01#8 := by rintro rfl; simp at hrow
  have htaken : State.Ready { s with inbox := .readReg n :: rest } := ⟨hready.unfaulted, hready.legal⟩
  refine ⟨_, _, step_writeReg hready hn hq, step_readReg (htaken.storeReg n d) (storeReg_inbox n d _), ?_⟩
  obtain ⟨-, haddr, -⟩ := s.cfg.legal_iff.1 hready.legal
  have hbase := vramBaseBits_eq_and haddr d
  have hhalf : (d.setWidth 16).setWidth 32 = d &&& 0xFFFF#32 := setWidth_setWidth_eq_and (by decide) d
  have hbyte : (d.setWidth 8).setWidth 32 = d &&& 0xFF#32 := setWidth_setWidth_eq_and (by decide) d
  have hword : d = d &&& 0xFFFFFFFF#32 := (BitVec.and_allOnes (x := d)).symm
  rcases hrow with ⟨rfl, rfl⟩ | ⟨rfl, rfl⟩ | ⟨rfl, rfl⟩ | ⟨rfl, rfl⟩ | ⟨rfl, rfl⟩ | ⟨rfl, rfl⟩ | ⟨rfl, rfl⟩ |
    ⟨rfl, rfl⟩ | ⟨rfl, rfl⟩ | ⟨rfl, rfl⟩ | ⟨rfl, rfl⟩ | ⟨rfl, rfl⟩ | ⟨rfl, rfl⟩ | ⟨rfl, rfl⟩ | ⟨rfl, rfl⟩
  exacts [setWidth_ofBool_getLsbD_zero d, hword, hword, hword, hbase, hhalf, hhalf, hhalf, hhalf, hhalf, hhalf, hhalf, hhalf,
    hhalf, hbyte]

/-! ### What a register write leaves -/

/-- Settles O10: `storeReg_eq` names the fields that change, and `readReg_storeReg_of_ne` what the other registers read. -/
theorem registerWriteChangesOnlyThatRegister : Obligations.RegisterWriteChangesOnlyThatRegister := by
  unfold Obligations.RegisterWriteChangesOnlyThatRegister
  intro s n d rest hready hn hq
  refine ⟨_, step_writeReg hready hn hq, fun m hm hdec => readReg_storeReg_of_ne hm hdec d _, ?_⟩
  rw [storeReg_eq]
  refine ⟨?_, fun h3 => ?_, rfl, rfl, rfl, rfl, rfl, hready.unfaulted, rfl, rfl, rfl⟩
  · rintro rfl
    exact ⟨rfl, rfl, rfl⟩
  · have hne : ¬ n.toNat = 0x03 := fun e => h3 (BitVec.eq_of_toNat_eq e)
    simp [hne]

/-- Settles O11: the two writes store different fields. -/
theorem registerWritesCommute : Obligations.RegisterWritesCommute := by
  unfold Obligations.RegisterWritesCommute
  intro s n m d e hnm hn hm
  simp only [writeReg_of_ne hn, writeReg_of_ne hm, andThen_next, storeReg_comm hnm]

/-- 10_state.md R22, R23: STATUS, PIXEL, DEC_STATE and the reserved numbers ignore writes. -/
theorem storeReg_eq_self {n : Byte} (h : n = 0x02#8 ∨ n = 0x11#8 ∨ n = 0x12#8 ∨ 0x13 ≤ n.toNat) (d : Word) (s : State) :
    storeReg n d s = s := by
  rcases h with rfl | rfl | rfl | h
  · rfl
  · rfl
  · rfl
  · unfold storeReg
    split
    case h_16 => rfl
    all_goals omega

/-- 10_state.md R21, R23: CMD and the reserved numbers read 0. -/
theorem readReg_eq_zero {n : Byte} (h : n = 0x01#8 ∨ 0x13 ≤ n.toNat) (s : State) : readReg n s = 0#32 := by
  rcases h with rfl | h
  · rfl
  · unfold readReg
    split
    case h_20 => rfl
    all_goals omega

/-- Settles O9: such a write stores the state itself, and such a read delivers 0. -/
theorem readOnlyAndReservedIgnoreWrites : Obligations.ReadOnlyAndReservedIgnoreWrites := by
  unfold Obligations.ReadOnlyAndReservedIgnoreWrites
  refine fun s n d rest hready => ⟨fun hn hq => ?_, fun hn hq => ?_⟩
  · have hcmd : n ≠ 0x01#8 := by rintro rfl; simp at hn
    rw [step_writeReg hready hcmd hq, storeReg_eq_self hn]
  · rw [step_readReg hready hq, readReg_eq_zero hn]

/-- Settles O12: the read's step writes readData only, and an empty queue makes the step idle. -/
theorem readsAndIdleStepsChangeNothing : Obligations.ReadsAndIdleStepsChangeNothing := by
  unfold Obligations.ReadsAndIdleStepsChangeNothing
  exact fun s hready => ⟨fun n rest hq => step_readReg hready hq, step_of_inbox_nil hready⟩

end Sys2Proof.Machine
end

section
/-! PROOFS. The invariant between steps (10_state.md R21, R26, R38, R39; 20_memory.md R50, R55). -/

namespace Sys2Proof.Machine

variable {b : Bool} {s t : State}

/-! ### The invariant, within a command too -/

/-- The part of the invariant that holds within a command as well: all but the packer and the puller at rest. -/
structure State.Sound (s : State) : Prop where
  legal : s.cfg.legal = true
  vramBase : s.par.vramBase.toNat < s.cfg.vramWords
  dev : DevicesWf s.cfg s.dev
  srcWf : Memory.wf s.src
  srcBelow : Memory.below s.src s.cfg.srcSize
  err : s.err.toNat ≤ 4
  runCnt : s.runCnt.toNat ≤ 62

/-- No pixel pending (10_state.md R39) and nobody pulling (log 2). -/
structure State.AtRest (s : State) : Prop where
  pendValid : s.pendValid = false
  puller : s.puller = .idle
  pulled : s.pulled = none

theorem State.inv_iff : s.Inv ↔ s.Sound ∧ s.AtRest := by
  constructor
  · intro h
    exact ⟨{ h with dev := { h with } }, { h with }⟩
  · rintro ⟨hs, hr⟩
    exact { hs, hs.dev, hr with }

/-- Soundness speaks of the configuration, the parameters, the memories, ERR and RUN_CNT only. -/
theorem State.Sound.of_eq (h : s.Sound) (hc : t.cfg = s.cfg) (hp : t.par = s.par) (hm : t.src = s.src)
    (hd : t.dev = s.dev) (herr : t.err.toNat ≤ 4) (hcnt : t.runCnt.toNat ≤ 62) : t.Sound := by
  constructor
  · rw [hc]; exact h.legal
  · rw [hc, hp]; exact h.vramBase
  · rw [hc, hd]; exact h.dev
  · rw [hm]; exact h.srcWf
  · rw [hc, hm]; exact h.srcBelow
  · exact herr
  · exact hcnt

theorem ErrorCode.code_le (e : ErrorCode) : e.code.toNat ≤ 4 := by cases e <;> decide

theorem State.Sound.beginCommand (h : s.Sound) : (beginCommand s).Sound := { h with err := by simp }

theorem State.Sound.setError (h : s.Sound) (e : ErrorCode) : (setError e s).Sound := { h with err := e.code_le }

theorem State.Sound.issue (h : s.Sound) (op : SinkOp) : (issue op s).Sound := { h with dev := h.dev.apply op }

theorem State.Sound.issues (h : s.Sound) (hi : Issues b s t) : t.Sound := by
  induction hi with
  | refl => exact h
  | issue _ op _ ih => exact ih.issue op

theorem State.Sound.packPixel (h : s.Sound) (p : Byte) : (packPixel p s).Sound := by
  unfold Sys2Proof.Machine.packPixel
  split
  · exact { h.issue (.vramWrite (packedWord s.pendByte p)) with }
  · exact { h with }

theorem State.Sound.raiseError (h : s.Sound) (e : ErrorCode) : (raiseError e s).Sound :=
  h.of_eq (raiseError_cfg e s) (raiseError_par e s) (raiseError_src e s) (raiseError_dev e s)
    (by rw [raiseError_err]; exact e.code_le) ((raiseError_runCnt_le e s).trans h.runCnt)

theorem State.Sound.imageClosed : ImageClosed State.Sound where
  size _ h := Config.srcSize_le_of_legal h.legal
  pull _ _ h hd _ hcnt := h.of_eq hd.cfg hd.par hd.src hd.dev (by rw [hd.err]; exact h.err) (hcnt h.runCnt)
  arm _ _ h := { h with }
  pack _ p h := h.packPixel p
  raise _ e h := h.raiseError e
  start _ _ h := h.issue _
  finish a h := h.of_eq (endScanline_cfg a) (endScanline_par a) (endScanline_src a) (endScanline_dev a)
    (by rw [endScanline_err]; exact h.err) (by rw [endScanline_runCnt]; exact h.runCnt)

/-! ### DRAW_IMAGE ends at rest -/

theorem packPixel_puller (p : Byte) (s : State) : (packPixel p s).puller = s.puller := by
  unfold packPixel; split <;> rfl

theorem packPulled_puller (s : State) : (packPulled s).puller = s.puller := by
  unfold packPulled
  split
  · exact packPixel_puller _ _
  · rfl

/-- A pull of DRAW_IMAGE after which nobody pulls ended in an error, so no pixel is left pending
(43_pixel_pair_packer.md R169). -/
theorem nextPixel_atRest {n : Nat} (hsize : s.cfg.srcSize ≤ 2 ^ 32 - 1) (hp : s.puller = .drawImage n)
    (h : nextPixel s = .next t) (ht : t.puller = .idle) : t.AtRest := by
  obtain ⟨u, hd, -, ⟨rfl, -⟩ | ⟨e, rfl⟩⟩ := nextPixel_eq_next hsize (by simp [hp]) h
  · rw [hd.puller, hp] at ht; cases ht
  · exact ⟨raiseError_pendValid_of_drawImage (hd.puller.trans hp) e, by simp, by simp⟩

/-- The same of a scanline. -/
theorem drawPixels_atRest (left : Nat) : ∀ {s t : State}, s.Sound → s.puller ≠ .idle → drawPixels left s = .next t →
    t.puller = .idle → t.AtRest := by
  induction left with
  | zero => intro s t _ hp h ht; cases h; exact absurd ht hp
  | succ k ih =>
    intro s t hs _ h ht
    have harm := State.Sound.imageClosed.arm s (k + 1) hs
    obtain ⟨u, hpull, hrest⟩ := andThen_eq_next.1 h
    split at hrest
    · cases hrest
      exact nextPixel_atRest (Config.srcSize_le_of_legal harm.legal) rfl hpull ht
    · next hu =>
      have hsu := State.Sound.imageClosed.nextPixel harm nofun hpull
      exact ih (State.Sound.imageClosed.packPulled hsu) (by rwa [packPulled_puller]) hrest ht

/-- Between scanlines no pixel is pending, and after an error nobody pulls. -/
theorem drawRows_atRest (left : Nat) : ∀ (y : Nat) {s t : State}, s.Sound → s.puller ≠ .idle → s.pendValid = false →
    drawRows left y s = .next t → t.AtRest ∨ (t.puller ≠ .idle ∧ t.pendValid = false) := by
  induction left with
  | zero => intro y s t _ hp hpend h; cases h; exact .inr ⟨hp, hpend⟩
  | succ k ih =>
    intro y s t hs hp _ h
    have hstart := State.Sound.imageClosed.start s y hs
    obtain ⟨u, hrow, hrest⟩ := andThen_eq_next.1 h
    split at hrest
    · next hu =>
      cases hrest
      exact .inl (drawPixels_atRest _ hstart hp hrow hu)
    · next hu =>
      have hsu := State.Sound.imageClosed.drawPixels _ hstart hrow
      exact ih (y + 1) (State.Sound.imageClosed.finish u hsu) (by simpa using hu) (by simp) hrest

theorem State.Sound.endImage (h : s.Sound) : (endImage s).Sound := by
  unfold Sys2Proof.Machine.endImage
  split
  · exact h
  · exact { h with runCnt := by simp }

/-- 10_state.md R39: DRAW_IMAGE leaves the packer and the puller at rest, whatever held before it. -/
theorem execDrawImage_atRest (hs : (beginImage s).Sound) (h : execDrawImage s = .next t) : t.AtRest := by
  obtain ⟨u, hrows, hend⟩ := andThen_eq_next.1 h
  cases hend
  unfold endImage
  rcases drawRows_atRest _ 0 hs nofun rfl hrows with hu | ⟨hp, hpend⟩
  · rwa [if_pos hu.puller]
  · rw [if_neg hp]
    exact ⟨hpend, rfl, rfl⟩

/-! ### Every command keeps the invariant -/

theorem State.Inv.execConvertPalette (h : s.Inv) (ht : execConvertPalette s = .next t) : t.Inv := by
  obtain ⟨hs, hr⟩ := State.inv_iff.1 h
  have hbegin : (endPulling (Sys2Proof.Machine.beginCommand s)).Sound := { hs.beginCommand with }
  rcases execConvertPalette_eq_next ht with hi | ⟨e, rfl⟩
  · refine State.inv_iff.2 ⟨hbegin.issues hi, ?_⟩
    obtain ⟨d, ops, rfl⟩ := hi.frame
    exact ⟨hr.pendValid, rfl, rfl⟩
  · exact State.inv_iff.2 ⟨hbegin.setError e, ⟨hr.pendValid, rfl, rfl⟩⟩

theorem State.Inv.execDrawLine (h : s.Inv) (ht : execDrawLine s = .next t) : t.Inv := by
  obtain ⟨hs, hr⟩ := State.inv_iff.1 h
  have hi := issues_execDrawLine ht
  refine State.inv_iff.2 ⟨hs.beginCommand.issues hi, ?_⟩
  obtain ⟨d, ops, rfl⟩ := hi.frame
  exact { hr with }

theorem State.Inv.execDecodePixel (h : s.Inv) (ht : execDecodePixel s = .next t) : t.Inv := by
  obtain ⟨hs, hr⟩ := State.inv_iff.1 h
  obtain ⟨u, hd, hcnt, hend⟩ := execDecodePixel_eq_next hs.legal ht
  have hu : u.Sound := hs.beginCommand.of_eq hd.cfg hd.par hd.src hd.dev (by rw [hd.err]; exact Nat.zero_le 4) (hcnt hs.runCnt)
  have hpend : u.pendValid = false := hd.pendValid.trans hr.pendValid
  rcases hend with ⟨p, rfl⟩ | ⟨e, rfl⟩
  · exact State.inv_iff.2 ⟨{ hu with }, ⟨hpend, rfl, rfl⟩⟩
  · exact State.inv_iff.2 ⟨{ hu.setError e with }, ⟨hpend, rfl, rfl⟩⟩

theorem State.Inv.execDrawImage (h : s.Inv) (ht : execDrawImage s = .next t) : t.Inv := by
  obtain ⟨hs, -⟩ := State.inv_iff.1 h
  have hbegin : (beginImage s).Sound := { hs.beginCommand with runCnt := by simp }
  obtain ⟨u, hu, hend⟩ := State.Sound.imageClosed.execDrawImage hbegin ht
  refine State.inv_iff.2 ⟨?_, execDrawImage_atRest hbegin ht⟩
  rw [hend]
  exact hu.endImage

theorem State.Inv.beginCommand (h : s.Inv) : (beginCommand s).Inv := { h with err := by simp }

/-- A command word selects a command, never a token (30_encoding.md R82). -/
theorem decodeCommand_isToken {w : Word} {i : Instr} (h : decodeCommand w = .ok i) : i.isToken = false := by
  unfold decodeCommand at h
  split at h
  · split at h <;> cases h <;> rfl
  · cases h

theorem State.Inv.exec {i : Instr} (hi : i.isToken = false) (h : s.Inv) (ht : exec i s = .next t) : t.Inv := by
  cases i with
  | nop => cases ht; exact h.beginCommand
  | convertPalette => exact h.execConvertPalette ht
  | drawImage => exact h.execDrawImage ht
  | drawLine => exact h.execDrawLine ht
  | decodePixel => exact h.execDecodePixel ht
  | _ => cases hi

/-- A command word, a reserved one too. -/
theorem State.Inv.dispatchCommand {w : Word} (h : s.Inv) (ht : dispatchCommand w s = .next t) : t.Inv := by
  unfold Sys2Proof.Machine.dispatchCommand at ht
  split at ht
  · next hd => exact h.exec (decodeCommand_isToken hd) ht
  · cases ht; exact { h with err := by simp }

/-! ### Every step keeps the invariant -/

/-- The kept bits of VRAM_BASE are a VRAM word address (R21). -/
theorem vramBaseBits_lt (c : Config) (d : Word) : (vramBaseBits c d).toNat < c.vramWords := by
  rw [vramBaseBits, BitVec.toNat_ofNat]
  exact (Nat.mod_le _ _).trans_lt (Nat.mod_lt _ (Config.vramWords_pos c))

theorem State.Inv.storeReg (h : s.Inv) (n : Byte) (d : Word) : (storeReg n d s).Inv := by
  rw [storeReg_eq]
  refine { h with vramBase := ?_, runCnt := ?_ }
  · dsimp only
    split
    · exact vramBaseBits_lt _ _
    · exact h.vramBase
  · dsimp only
    split
    · simp
    · exact h.runCnt

theorem State.Inv.resetBlock (h : s.Inv) : (resetBlock s).Inv :=
  { h with
    vramBase := Config.vramWords_pos _
    err := Nat.zero_le 4
    runCnt := Nat.zero_le 62
    pendValid := rfl
    puller := rfl
    pulled := rfl }

theorem State.Inv.loadSrc {off : Nat} {x : Byte} (h : s.Inv) (ht : loadSrc off x s = .next t) : t.Inv := by
  unfold Sys2Proof.Machine.loadSrc at ht
  split at ht
  · cases ht
  · next hoff =>
    cases ht
    exact { h with
      srcWf := Memory.wf_write _ _ _ h.srcWf
      srcBelow := Memory.below_write _ _ _ _ (Nat.lt_of_not_le hoff) h.srcBelow }

theorem State.Inv.hostDevice (h : s.Inv) (op : SinkOp) : (hostDevice op s).Inv := by
  obtain ⟨hs, hr⟩ := State.inv_iff.1 h
  exact State.inv_iff.2 ⟨{ hs with dev := hs.dev.apply op }, { hr with }⟩

theorem State.Inv.runTxn {x : HostTxn} (h : s.Inv) (ht : runTxn x s = .next t) : t.Inv := by
  cases x with
  | writeReg n d =>
    simp only [Sys2Proof.Machine.runTxn, writeReg] at ht
    split at ht
    · exact h.dispatchCommand ht
    · cases ht; exact h.storeReg n d
  | readReg n => cases ht; exact { h with }
  | reset => cases ht; exact h.resetBlock
  | loadSrc off x => exact h.loadSrc ht
  | vramRead a => cases ht; exact { h with }
  | vramSetCursor a => cases ht; exact h.hostDevice _
  | vramWrite v => cases ht; exact h.hostDevice _
  | palSetCursor => cases ht; exact h.hostDevice _
  | palWrite v => cases ht; exact h.hostDevice _

/-- A step with a next state is one of an unmarked machine. -/
theorem step_unfaulted (h : step s = .next t) : s.faulted = none := by
  unfold step at h
  split at h
  · cases h
  · assumption

/-- Settles O60: a step that has a next state is idle or one host transaction, and `State.Inv.runTxn` covers every one. -/
theorem stepKeepsInvariant : Obligations.StepKeepsInvariant := by
  unfold Obligations.StepKeepsInvariant
  intro s t hinv hstep
  have hready : s.Ready := ⟨step_unfaulted hstep, hinv.legal⟩
  cases hq : s.inbox with
  | nil => cases (step_of_inbox_nil hready hq).symm.trans hstep; exact hinv
  | cons x rest =>
    have htaken : State.Inv { s with inbox := rest } := { hinv with }
    exact htaken.runTxn ((step_of_inbox_cons hready hq).symm.trans hstep)

end Sys2Proof.Machine
end

section
/-! PROOFS. The fault mark (10_state.md R43, 60_exceptions.md R203). -/

namespace Sys2Proof.Machine

variable {s : State}

/-! ### The fault mark -/

/-- Only a command word can fault, and it stops in a marked state (60_exceptions.md R203). -/
theorem dispatchCommand_fault {w : Word} {f : Fault} (h : dispatchCommand w s = .fault f) :
    ∃ c u, f = faultAt c (markFault c u) := by
  unfold dispatchCommand at h
  split at h
  · exact (exec_orderly _ s).marked f h
  · cases h

theorem runTxn_fault {x : HostTxn} {f : Fault} (h : runTxn x s = .fault f) : ∃ c u, f = faultAt c (markFault c u) := by
  cases x with
  | writeReg n d =>
    simp only [runTxn, writeReg] at h
    split at h
    · exact dispatchCommand_fault h
    · cases h
  | loadSrc off b =>
    simp only [runTxn, loadSrc] at h
    split at h <;> cases h
  | _ => cases h

/-- A step that newly faults stops in a state marked with the fault's cause. -/
theorem step_fault_marked {f : Fault} (hs : s.faulted = none) (h : step s = .fault f) :
    f.state.faulted = some f.cause := by
  have hmarked : ∃ c u, f = faultAt c (markFault c u) := by
    simp only [step, hs] at h
    split at h
    · unfold takeTxn at h
      split at h
      · cases h
      · exact runTxn_fault h
    · cases h
  obtain ⟨c, u, rfl⟩ := hmarked
  simp

theorem step_of_faulted {c : FaultCause} (h : s.faulted = some c) : step s = .fault (faultAt c s) := by
  simp [step, h]

/-- 10_state.md R43: a faulted state takes no further step. -/
theorem advance_of_faulted {c : FaultCause} (h : s.faulted = some c) : advance s = s := by
  simp [advance, step_of_faulted h]

/-- Settles O16: a newly faulted step stops in a marked state, and a marked state is a fixed point of `advance`. -/
theorem faultMarkIsNeverCleared : Obligations.FaultMarkIsNeverCleared := by
  unfold Obligations.FaultMarkIsNeverCleared
  refine ⟨rfl, fun s f hs hf => ?_, fun s c hc => ⟨step_of_faulted hc, fun k => ?_⟩⟩
  · have hadv : advance s = f.state := by simp [advance, hf]
    exact ⟨hadv, hadv ▸ step_fault_marked hs hf⟩
  · exact Function.iterate_fixed (advance_of_faulted hc) k

end Sys2Proof.Machine
end

section
/-! PROOFS. Unchecked mode (10_state.md R24, 20_memory.md R52): two runs that differ in SRC_LEN stay twins. -/

namespace Sys2Proof.Machine

variable {s t : State} {l : Word}

/-! ### SRC_LEN in unchecked mode -/

/-- The state with another SRC_LEN. -/
def withSrcLen (l : Word) (s : State) : State := { s with par := { s.par with srcLen := l } }

@[simp] theorem withSrcLen_runCnt (l : Word) (s : State) : (withSrcLen l s).runCnt = s.runCnt := rfl
@[simp] theorem withSrcLen_pendValid (l : Word) (s : State) : (withSrcLen l s).pendValid = s.pendValid := rfl
@[simp] theorem withSrcLen_puller (l : Word) (s : State) : (withSrcLen l s).puller = s.puller := rfl
@[simp] theorem withSrcLen_pulled (l : Word) (s : State) : (withSrcLen l s).pulled = s.pulled := rfl

/-- `r'` is the outcome `r` with another SRC_LEN in its state, and a next state is in unchecked mode. -/
inductive TwinOutcome (l : Word) : Result → Result → Prop
  | next {t : State} (h : t.par.chk = false) : TwinOutcome l (.next t) (.next (withSrcLen l t))
  | fault (c : FaultCause) (t : State) : TwinOutcome l (.fault (faultAt c t)) (.fault (faultAt c (withSrcLen l t)))
  | refused (x : Refusal) : TwinOutcome l (.refused x) (.refused x)

theorem TwinOutcome.eq_mapStates {r r' : Result} (h : TwinOutcome l r r') : r' = mapStates (withSrcLen l) r := by
  cases h with
  | next _ => rfl
  | fault c t => simp [mapStates]
  | refused x => rfl

theorem TwinOutcome.andThen {r r' : Result} {f : State → Result} (h : TwinOutcome l r r')
    (hf : ∀ t, t.par.chk = false → TwinOutcome l (f t) (f (withSrcLen l t))) :
    TwinOutcome l (andThen r f) (andThen r' f) := by
  cases h with
  | next ht => exact hf _ ht
  | fault c t => exact .fault c t
  | refused x => exact .refused x

/-- A next state given up to equality with its twin. -/
theorem TwinOutcome.next_of_eq {t' : State} (h : t.par.chk = false) (ht : t' = withSrcLen l t) :
    TwinOutcome l (.next t) (.next t') :=
  ht ▸ .next h

theorem raiseError_withSrcLen (e : ErrorCode) (l : Word) (s : State) :
    raiseError e (withSrcLen l s) = withSrcLen l (raiseError e s) := by
  unfold raiseError
  rw [withSrcLen_puller]
  split <;> rfl

theorem stopCommand_twin (st : Stop) (h : s.par.chk = false) :
    TwinOutcome l (stopCommand st s) (stopCommand st (withSrcLen l s)) := by
  cases st with
  | error e => exact .next_of_eq (by simpa using h) (raiseError_withSrcLen e l s)
  | fault c => exact .fault c (markFault c s)

/-- 20_memory.md R52: in unchecked mode SrcFetch is MemRead. -/
theorem srcFetch_of_unchecked (h : s.par.chk = false) (off : Nat) : srcFetch off s = memRead off s := by
  simp [srcFetch, h]

/-- The fetch is the one place where a pull would consult SRC_LEN. -/
theorem fetchToken_withSrcLen (h : s.par.chk = false) : fetchToken (withSrcLen l s) = fetchToken s := by
  have hfetch : ∀ off, srcFetch off (withSrcLen l s) = srcFetch off s := fun off => by
    rw [srcFetch_of_unchecked h, srcFetch_of_unchecked (s := withSrcLen l s) h]; rfl
  unfold fetchToken
  rw [hfetch, hfetch]
  rfl

theorem execRun_twin (n : BitVec 6) (v : Byte) (h : s.par.chk = false) :
    TwinOutcome l (execRun n v s) (execRun n v (withSrcLen l s)) := by
  unfold execRun
  by_cases ho : overBudget s.puller n = true
  · rw [if_pos ho, if_pos (show overBudget (withSrcLen l s).puller n = true from ho)]
    exact stopCommand_twin _ h
  · rw [if_neg ho, if_neg (show ¬ overBudget (withSrcLen l s).puller n = true from ho)]
    split
    · exact .next h
    · exact .next h

theorem runToken_twin (i : Instr) (h : s.par.chk = false) :
    TwinOutcome l (runToken i s) (runToken i (withSrcLen l s)) := by
  cases i with
  | lit00 T => exact .next h
  | lit01 T => exact .next h
  | lit10 T => exact .next h
  | run n v => exact execRun_twin n v h
  | _ => exact .refused _

theorem pullLoop_twin (fuel : Nat) : ∀ {s : State}, s.par.chk = false →
    TwinOutcome l (pullLoop fuel s) (pullLoop fuel (withSrcLen l s)) := by
  induction fuel with
  | zero => exact fun h => stopCommand_twin (.fault .srcRange) h
  | succ k ih =>
    intro s h
    rw [pullLoop, pullLoop, fetchToken_withSrcLen h]
    cases fetchToken s with
    | error st => exact stopCommand_twin st h
    | ok i =>
      refine (runToken_twin i h).andThen fun t ht => ?_
      rw [show pullOver (withSrcLen l t) = pullOver t from rfl]
      split
      · exact .next ht
      · exact ih ht

theorem nextPixel_twin (h : s.par.chk = false) : TwinOutcome l (nextPixel s) (nextPixel (withSrcLen l s)) := by
  unfold nextPixel
  rw [withSrcLen_runCnt]
  split
  · exact pullLoop_twin (pullFuel s) (s := { s with pulled := none }) h
  · exact .next h

theorem packPulled_withSrcLen (l : Word) (s : State) : packPulled (withSrcLen l s) = withSrcLen l (packPulled s) := by
  have hpack : ∀ p u, packPixel p (withSrcLen l u) = withSrcLen l (packPixel p u) := fun p u => by
    unfold packPixel
    rw [withSrcLen_pendValid]
    split <;> rfl
  unfold packPulled
  rw [withSrcLen_pulled]
  split
  · exact hpack _ { s with pulled := none }
  · rfl

theorem packPulled_par (s : State) : (packPulled s).par = s.par := by
  unfold packPulled packPixel
  split
  · split <;> rfl
  · rfl

theorem endScanline_withSrcLen (l : Word) (s : State) : endScanline (withSrcLen l s) = withSrcLen l (endScanline s) := by
  unfold endScanline
  rw [withSrcLen_pendValid]
  split <;> rfl

theorem drawPixels_twin (left : Nat) : ∀ {s : State}, s.par.chk = false →
    TwinOutcome l (drawPixels left s) (drawPixels left (withSrcLen l s)) := by
  induction left with
  | zero => exact fun h => .next h
  | succ k ih =>
    intro s h
    refine (nextPixel_twin (s := { s with puller := .drawImage (k + 1) }) h).andThen fun t ht => ?_
    rw [withSrcLen_puller]
    split
    · exact .next ht
    · rw [packPulled_withSrcLen]
      exact ih (by rwa [packPulled_par])

theorem drawRows_twin (left : Nat) : ∀ (y : Nat) {s : State}, s.par.chk = false →
    TwinOutcome l (drawRows left y s) (drawRows left y (withSrcLen l s)) := by
  induction left with
  | zero => exact fun _ _ h => .next h
  | succ k ih =>
    intro y s h
    refine (drawPixels_twin s.par.width.toNat (s := startScanline y s) h).andThen fun t ht => ?_
    rw [withSrcLen_puller]
    split
    · exact .next ht
    · rw [endScanline_withSrcLen]
      exact ih (y + 1) (by simpa using ht)

theorem execDrawImage_twin (h : s.par.chk = false) : TwinOutcome l (execDrawImage s) (execDrawImage (withSrcLen l s)) := by
  refine (drawRows_twin s.par.height.toNat 0 (s := beginImage s) h).andThen fun t ht => ?_
  unfold endImage
  rw [withSrcLen_puller]
  split <;> exact .next ht

theorem execDecodePixel_twin (h : s.par.chk = false) :
    TwinOutcome l (execDecodePixel s) (execDecodePixel (withSrcLen l s)) := by
  refine (nextPixel_twin (s := { beginCommand s with puller := .decodePixel }) h).andThen fun t ht => ?_
  unfold latchPixel
  rw [withSrcLen_pulled]
  split <;> exact .next ht

theorem plotAll_withSrcLen (c : Byte) (pts : List (Nat × Nat)) (l : Word) :
    ∀ s : State, plotAll c pts (withSrcLen l s) = withSrcLen l (plotAll c pts s) := by
  induction pts with
  | nil => exact fun _ => rfl
  | cons pt rest ih => exact fun s => ih (plot c pt s)

theorem execDrawLine_twin (h : s.par.chk = false) : TwinOutcome l (execDrawLine s) (execDrawLine (withSrcLen l s)) := by
  refine .next_of_eq ?_ (plotAll_withSrcLen s.par.color (linePoints s.par) l (beginCommand s))
  obtain ⟨d, ops, hframe⟩ := (issues_execDrawLine (s := s) rfl).frame
  rw [hframe]
  exact h

/-- A pass whose entries do not depend on SRC_LEN. -/
theorem palettePass_withSrcLen {entry : State → Nat → Half} (hentry : ∀ s i, entry (withSrcLen l s) i = entry s i)
    (left : Nat) : ∀ (i : Nat) (s : State),
      palettePass entry left i (withSrcLen l s) = withSrcLen l (palettePass entry left i s) := by
  induction left with
  | zero => exact fun _ _ => rfl
  | succ k ih =>
    intro i s
    simp only [palettePass, hentry]
    exact ih (i + 1) (issue (.palWrite (entry s i)) s)

theorem convertBlock_withSrcLen (l : Word) (s : State) : convertBlock (withSrcLen l s) = withSrcLen l (convertBlock s) := by
  unfold convertBlock
  rw [← palettePass_withSrcLen (fun _ _ => rfl), ← palettePass_withSrcLen (fun _ _ => rfl)]
  rfl

theorem blockPastLen_of_unchecked (h : s.par.chk = false) : blockPastLen s = false := by
  simp [blockPastLen, h]

theorem execConvertPalette_twin (h : s.par.chk = false) :
    TwinOutcome l (execConvertPalette s) (execConvertPalette (withSrcLen l s)) := by
  unfold execConvertPalette
  dsimp only
  rw [show endPulling (beginCommand (withSrcLen l s)) = withSrcLen l (endPulling (beginCommand s)) from rfl]
  have ht : (endPulling (beginCommand s)).par.chk = false := h
  generalize endPulling (beginCommand s) = t at ht
  rw [blockPastLen_of_unchecked ht, blockPastLen_of_unchecked (s := withSrcLen l t) ht,
    show blockPastMemory (withSrcLen l t) = blockPastMemory t from rfl,
    show memRead (withSrcLen l t).par.palPtr.toNat (withSrcLen l t) = memRead t.par.palPtr.toNat t from rfl,
    convertBlock_withSrcLen]
  simp only [Bool.false_eq_true, if_false]
  split
  · exact stopCommand_twin _ ht
  · split
    · exact stopCommand_twin _ ht
    · split
      · obtain ⟨d, ops, hframe⟩ := (issues_convertBlock t).frame
        exact .next (by rw [hframe]; exact ht)
      · exact stopCommand_twin _ ht

/-- 10_state.md R24: in unchecked mode every instruction takes the state with another SRC_LEN to the twin of its outcome. -/
theorem exec_twin (i : Instr) (h : s.par.chk = false) : TwinOutcome l (exec i s) (exec i (withSrcLen l s)) := by
  cases i with
  | nop => exact .next h
  | convertPalette => exact execConvertPalette_twin h
  | drawImage => exact execDrawImage_twin h
  | drawLine => exact execDrawLine_twin h
  | decodePixel => exact execDecodePixel_twin h
  | lit00 T => exact .next h
  | lit01 T => exact .next h
  | lit10 T => exact .next h
  | run n v => exact execRun_twin n v h

/-- Settles O56: the outcome from the state with another SRC_LEN is the twin of the outcome. -/
theorem uncheckedModeIgnoresSrcLen : Obligations.UncheckedModeIgnoresSrcLen := by
  unfold Obligations.UncheckedModeIgnoresSrcLen
  exact fun i s l h => (exec_twin (l := l) i h).eq_mapStates

end Sys2Proof.Machine
end

section
/-! PROOFS. Source memory (20_memory.md R51 to R53, R61, R64): what the block reads from it and what the host puts into it. -/

namespace Sys2Proof.Machine

variable {s t : State}

/-! ### The block reads source memory -/

/-- MemRead of a byte of source memory (R51). -/
theorem memRead_of_lt {off : Nat} (h : off < s.cfg.srcSize) : memRead off s = .ok (Memory.read s.src off) :=
  if_neg h.not_ge

/-- MemRead past source memory (R51). -/
theorem memRead_of_le {off : Nat} (h : s.cfg.srcSize ≤ off) : memRead off s = .error (.fault .srcRange) :=
  if_pos h

/-- SrcFetch is MemRead wherever SRC_LEN does not stop it (R52). -/
theorem srcFetch_eq_memRead {off : Nat} (h : s.par.chk = true → off < s.par.srcLen.toNat) :
    srcFetch off s = memRead off s :=
  if_neg fun ⟨hchk, hlen⟩ => (h hchk).not_ge hlen

/-- Settles O21: the check against SRC_LEN comes first, and without it SrcFetch is MemRead. -/
theorem srcFetchChecksThenReads : Obligations.SrcFetchChecksThenReads := by
  unfold Obligations.SrcFetchChecksThenReads
  intro s off
  have hpass : (s.par.chk = false ∨ off < s.par.srcLen.toNat) → srcFetch off s = memRead off s := fun h =>
    srcFetch_eq_memRead fun hchk => h.resolve_left (by simp [hchk])
  refine ⟨fun hchk hlen => if_pos ⟨hchk, hlen⟩, fun h hoff => ?_, fun h hoff => ?_⟩
  · rw [hpass h, memRead_of_le hoff]
  · rw [hpass h, memRead_of_lt hoff]

/-! ### The host loads source memory -/

theorem step_loadSrc {off : Nat} {b : Byte} {rest : List HostTxn} (h : s.Ready) (hoff : off < s.cfg.srcSize)
    (hq : s.inbox = .loadSrc off b :: rest) :
    step s = .next { s with inbox := rest, src := Memory.write s.src off b } :=
  (step_of_inbox_cons h hq).trans (if_neg hoff.not_ge)

/-- Settles O13: the load is a write of source memory, and a read depends on nothing else that it changes. -/
theorem hostLoadIsSeenByLaterReads : Obligations.HostLoadIsSeenByLaterReads := by
  unfold Obligations.HostLoadIsSeenByLaterReads
  intro s off b rest hready hwf hoff hq
  refine ⟨_, step_loadSrc hready hoff hq, ?_, fun a ha => ?_, Memory.wf_write _ _ _ hwf, rfl⟩
  · rw [memRead_of_lt (s := { s with inbox := rest, src := Memory.write s.src off b }) hoff,
      Memory.read_write_same _ _ _ hwf]
  · simp only [memRead, Memory.read_write_other _ _ _ _ ha]

theorem core_run_succ (h : step s = .next t) (k : Nat) : Host.Core.run core (k + 1) s = Host.Core.run core k t := by
  have hstep : core.step s = .next t := h
  simp only [Host.Core.run, hstep]

/-- The loads of a file take one step per byte and leave the bytes from `off` on; everything else of source memory stays. -/
theorem run_loadFrom (file : List Byte) : ∀ {s : State} {off : Nat} {rest : List HostTxn} (k : Nat), s.Ready →
    Memory.wf s.src → off + file.length ≤ s.cfg.srcSize → s.inbox = loadFrom off file ++ rest →
    ∃ m, Host.Core.run core (file.length + k) s = Host.Core.run core k { s with inbox := rest, src := m } ∧
      (∀ j, ∀ h : j < file.length, Memory.read m (off + j) = file[j]) ∧
      ∀ a, a < off ∨ off + file.length ≤ a → Memory.read m a = Memory.read s.src a := by
  induction file with
  | nil =>
    intro s off rest k _ _ _ hq
    obtain rfl : s.inbox = rest := hq
    exact ⟨s.src, by simp, nofun, fun _ _ => rfl⟩
  | cons b file ih =>
    intro s off rest k hready hwf hsize hq
    rw [List.length_cons] at hsize
    have hstep := step_loadSrc hready (show off < s.cfg.srcSize by omega) hq
    obtain ⟨m, hrun, hbytes, hother⟩ :=
      ih (s := { s with inbox := loadFrom (off + 1) file ++ rest, src := Memory.write s.src off b }) (off := off + 1) k
        ⟨hready.unfaulted, hready.legal⟩ (Memory.wf_write _ _ _ hwf) (by dsimp only; omega) rfl
    refine ⟨m, ?_, fun j hj => ?_, fun a ha => ?_⟩
    · rw [List.length_cons, Nat.add_right_comm, core_run_succ hstep]
      exact hrun
    · cases j with
      | zero => exact (hother off (.inl (by omega))).trans (Memory.read_write_same _ _ _ hwf)
      | succ j =>
        rw [show off + (j + 1) = off + 1 + j by omega]
        exact hbytes j (by simpa using hj)
    · rw [List.length_cons] at ha
      rw [hother a (by omega), Memory.read_write_other _ _ _ _ (by omega)]

/-- Settles O14: the loads put the bytes there and the last transaction writes SRC_LEN, which holds every legal SRC_SIZE. -/
theorem loadFilePutsBytesAndLength : Obligations.LoadFilePutsBytesAndLength := by
  unfold Obligations.LoadFilePutsBytesAndLength
  intro s file hready hwf hsize hq
  obtain ⟨m, hrun, hbytes, hother⟩ := run_loadFrom file 1 hready hwf (by omega) hq
  have hlegal := Config.srcSize_le_of_legal hready.legal
  have hloaded : State.Ready { s with inbox := [.writeReg 0x04#8 (BitVec.ofNat 32 file.length)], src := m } :=
    ⟨hready.unfaulted, hready.legal⟩
  refine ⟨_, hrun.trans (core_run_succ (step_writeReg hloaded (by decide) rfl) 0), ?_, fun k hk => ?_, fun a ha => ?_, rfl⟩
  · exact Nat.mod_eq_of_lt (by omega)
  · exact (Nat.zero_add k ▸ hbytes k hk :)
  · exact hother a (by omega)

/-! ### The host uses the devices -/

/-- Settles O15: the transaction applies the operation to the devices, or reads VRAM into readData. -/
theorem hostDeviceUseLeavesTheBlock : Obligations.HostDeviceUseLeavesTheBlock := by
  unfold Obligations.HostDeviceUseLeavesTheBlock
  intro s a v rest hready
  refine ⟨?_, ?_, ?_, ?_, ?_⟩ <;> exact step_of_inbox_cons hready

end Sys2Proof.Machine
end

section
/-! PROOFS. What no command changes (10_state.md R28 to R35, 20_memory.md R51), and that checked mode keeps every read inside
source memory (20_memory.md R52). -/

namespace Sys2Proof.Machine

variable {b : Bool} {s t u : State}

/-! ### What only the host changes -/

/-- `t` agrees with `s` on the configuration, the parameter registers, source memory, the host's side and the fault mark. -/
structure HostSideKept (s t : State) : Prop where
  cfg : t.cfg = s.cfg
  par : t.par = s.par
  src : t.src = s.src
  inbox : t.inbox = s.inbox
  readData : t.readData = s.readData
  faulted : t.faulted = s.faulted

theorem HostSideKept.trans (h : HostSideKept s t) (k : HostSideKept t u) : HostSideKept s u :=
  ⟨k.cfg.trans h.cfg, k.par.trans h.par, k.src.trans h.src, k.inbox.trans h.inbox, k.readData.trans h.readData,
    k.faulted.trans h.faulted⟩

theorem DecoderOnly.hostSideKept (h : DecoderOnly s t) : HostSideKept s t := { h with }

theorem Issues.hostSideKept (h : Issues b s t) : HostSideKept s t := by
  obtain ⟨d, ops, rfl⟩ := h.frame
  exact ⟨rfl, rfl, rfl, rfl, rfl, rfl⟩

theorem hostSideKept_beginCommand (s : State) : HostSideKept s (beginCommand s) := ⟨rfl, rfl, rfl, rfl, rfl, rfl⟩

theorem hostSideKept_raiseError (e : ErrorCode) (s : State) : HostSideKept s (raiseError e s) := by
  constructor <;> simp

theorem hostSideKept_packPixel (p : Byte) (s : State) : HostSideKept s (packPixel p s) := by
  unfold packPixel
  split <;> exact ⟨rfl, rfl, rfl, rfl, rfl, rfl⟩

theorem hostSideKept_endScanline (s : State) : HostSideKept s (endScanline s) := by
  constructor <;> simp

theorem hostSideKept_endImage (s : State) : HostSideKept s (endImage s) := by
  unfold endImage
  split <;> exact ⟨rfl, rfl, rfl, rfl, rfl, rfl⟩

/-- No part of an image touches the host's side. -/
theorem HostSideKept.imageClosed (hl : s.cfg.legal = true) : ImageClosed (HostSideKept s) where
  size _ h := by rw [h.cfg]; exact Config.srcSize_le_of_legal hl
  pull _ _ h hd _ _ := h.trans hd.hostSideKept
  arm _ _ h := { h with }
  pack _ p h := h.trans (hostSideKept_packPixel p _)
  raise _ e h := h.trans (hostSideKept_raiseError e _)
  start _ _ h := { h with }
  finish _ h := h.trans (hostSideKept_endScanline _)

theorem hostSideKept_execRun {n : BitVec 6} {v : Byte} (h : execRun n v s = .next t) : HostSideKept s t := by
  unfold execRun at h
  split at h
  · split at h
    · cases h; exact hostSideKept_raiseError _ s
    · cases h
  · split at h <;> cases h <;> exact ⟨rfl, rfl, rfl, rfl, rfl, rfl⟩

/-- Whatever an instruction answers next, the host's side is as it was. -/
theorem hostSideKept_exec {i : Instr} (hl : s.cfg.legal = true) (h : exec i s = .next t) : HostSideKept s t := by
  have hbegin := hostSideKept_beginCommand s
  cases i with
  | nop => cases h; exact hbegin
  | convertPalette =>
    have hidle : HostSideKept s (endPulling (beginCommand s)) := { hbegin with }
    rcases execConvertPalette_eq_next h with hissues | ⟨e, rfl⟩
    · exact hidle.trans hissues.hostSideKept
    · exact { hidle with }
  | drawImage =>
    obtain ⟨u, hu, rfl⟩ := (HostSideKept.imageClosed hl).execDrawImage (s := s) { hbegin with } h
    exact hu.trans (hostSideKept_endImage u)
  | drawLine => exact hbegin.trans (issues_execDrawLine h).hostSideKept
  | decodePixel =>
    obtain ⟨u, hd, -, hend⟩ := execDecodePixel_eq_next hl h
    have harm : HostSideKept s { beginCommand s with puller := .decodePixel } := { hbegin with }
    have hu := harm.trans hd.hostSideKept
    rcases hend with ⟨p, rfl⟩ | ⟨e, rfl⟩ <;> exact { hu with }
  | run n v => exact hostSideKept_execRun h
  | _ => cases h; exact ⟨rfl, rfl, rfl, rfl, rfl, rfl⟩

/-- Settles O52, by the frame of every instruction. -/
theorem noCommandChangesParameters : Obligations.NoCommandChangesParameters := by
  unfold Obligations.NoCommandChangesParameters
  intro i s t hl h
  obtain ⟨hcfg, hpar, hsrc, hinbox, hread, hfaulted⟩ := hostSideKept_exec hl h
  exact ⟨hpar, hsrc, hcfg, hinbox, hread, hfaulted⟩

/-! ### Checked mode -/

/-- Checked mode with SRC_LEN inside source memory: SRC_LEN stops every read that source memory would. -/
structure State.Guarded (s : State) : Prop where
  chk : s.par.chk = true
  srcLen : s.par.srcLen.toNat ≤ s.cfg.srcSize

theorem State.Guarded.of_eq (h : s.Guarded) (hc : t.cfg = s.cfg) (hp : t.par = s.par) : t.Guarded :=
  ⟨by rw [hp]; exact h.chk, by rw [hc, hp]; exact h.srcLen⟩

theorem State.Guarded.srcFetch (h : s.Guarded) {off : Nat} {st : Stop} (hf : srcFetch off s = .error st) :
    st = .error .unexpectedEof := by
  by_cases hlen : s.par.srcLen.toNat ≤ off
  · cases (if_pos ⟨h.chk, hlen⟩).symm.trans hf; rfl
  · have hoff : off < s.par.srcLen.toNat := Nat.lt_of_not_le hlen
    rw [srcFetch_eq_memRead fun _ => hoff, memRead_of_lt (hoff.trans_le h.srcLen)] at hf
    cases hf

theorem State.Guarded.fetchToken (h : s.Guarded) {st : Stop} (hf : fetchToken s = .error st) :
    st = .error .unexpectedEof := by
  unfold Sys2Proof.Machine.fetchToken at hf
  split at hf
  · next he => cases hf; exact h.srcFetch he
  · split at hf
    · split at hf
      · next he => cases hf; exact h.srcFetch he
      · cases hf
    · cases hf

/-- In checked mode a pull stops by a reported error only (R52, 43_pixel_pair_packer.md R164). -/
theorem State.Guarded.nextPixel (h : s.Guarded) (hsize : s.cfg.srcSize ≤ 2 ^ 32 - 1) (hp : s.puller ≠ .idle) :
    ∃ t, nextPixel s = .next t := by
  rcases nextPixel_cases s hsize hp with ⟨p, t, hn, -⟩ | ⟨-, u, st, hn, hstop, -⟩
  · exact ⟨t, hn⟩
  · have hu : u.Guarded := h.of_eq hstop.only.cfg hstop.only.par
    obtain ⟨e, rfl⟩ : ∃ e, st = .error e := by
      rcases hstop.why with hf | ⟨n, v, -, -, rfl⟩
      · exact ⟨_, hu.fetchToken hf⟩
      · exact ⟨_, if_pos hu.chk⟩
    exact ⟨_, hn⟩

/-- An image without a next state would have stopped in one of its pulls. -/
theorem State.Guarded.execDrawImage (h : s.Guarded) (hl : s.cfg.legal = true) : ∃ t, execDrawImage s = .next t := by
  have hclosed := HostSideKept.imageClosed hl
  have hbegin : HostSideKept s (beginImage s) := { hostSideKept_beginCommand s with }
  obtain ⟨t, ht⟩ : ∃ t, drawRows s.par.height.toNat 0 (beginImage s) = .next t := by
    by_contra hno
    obtain ⟨u, hu, hp, hstop⟩ := hclosed.drawRows_stops _ 0 hbegin rfl fun t ht => hno ⟨t, ht⟩
    obtain ⟨t, ht⟩ := (h.of_eq hu.cfg hu.par).nextPixel (hclosed.size u hu) hp
    exact hno ⟨t, hstop.symm.trans ht⟩
  exact ⟨endImage t, andThen_eq_next.2 ⟨t, ht, rfl⟩⟩

theorem State.Guarded.execDecodePixel (h : s.Guarded) (hl : s.cfg.legal = true) : ∃ t, execDecodePixel s = .next t := by
  have hbegin : State.Guarded { beginCommand s with puller := .decodePixel } := h.of_eq rfl rfl
  obtain ⟨t, ht⟩ := hbegin.nextPixel (Config.srcSize_le_of_legal hl) nofun
  exact ⟨latchPixel t, andThen_eq_next.2 ⟨t, ht, rfl⟩⟩

theorem blockPastLen_iff (s : State) :
    blockPastLen s = true ↔ s.par.chk = true ∧ s.par.srcLen.toNat < s.par.palPtr.toNat + palBlockLen := by
  rw [blockPastLen, Bool.and_eq_true, decide_eq_true_eq]

theorem blockPastMemory_iff (s : State) : blockPastMemory s = true ↔ s.cfg.srcSize < s.par.palPtr.toNat + palBlockLen :=
  decide_eq_true_iff

/-- A palette block inside SRC_LEN lies inside source memory (41_palette_converter.md R120, R126). -/
theorem State.Guarded.execConvertPalette (h : s.Guarded) : ∃ t, execConvertPalette s = .next t := by
  unfold Sys2Proof.Machine.execConvertPalette
  dsimp only
  have hbegin : (endPulling (beginCommand s)).Guarded := h.of_eq rfl rfl
  generalize endPulling (beginCommand s) = t at hbegin
  by_cases hlen : blockPastLen t = true
  · exact ⟨_, if_pos hlen⟩
  · have hblock : t.par.palPtr.toNat + palBlockLen ≤ t.cfg.srcSize :=
      le_trans (Nat.le_of_not_lt fun hlt => hlen ((blockPastLen_iff t).2 ⟨hbegin.chk, hlt⟩)) hbegin.srcLen
    have hmem : ¬ blockPastMemory t = true := fun h => hblock.not_gt ((blockPastMemory_iff t).1 h)
    rw [if_neg hlen, if_neg hmem, memRead_of_lt ((Nat.lt_add_of_pos_right (by decide)).trans_le hblock)]
    dsimp only
    split
    · exact ⟨_, rfl⟩
    · exact ⟨_, rfl⟩

theorem State.Guarded.execRun (h : s.Guarded) (n : BitVec 6) (v : Byte) : ∃ t, execRun n v s = .next t := by
  unfold Sys2Proof.Machine.execRun
  rw [if_pos h.chk]
  split
  · exact ⟨_, rfl⟩
  · split <;> exact ⟨_, rfl⟩

/-- Settles O57: every instruction, from a state whose reads SRC_LEN guards. -/
theorem checkedModeNeverFaults : Obligations.CheckedModeNeverFaults := by
  unfold Obligations.CheckedModeNeverFaults
  intro i s hl hchk hlen
  have h : s.Guarded := ⟨hchk, hlen⟩
  cases i with
  | convertPalette => exact h.execConvertPalette
  | drawImage => exact h.execDrawImage hl
  | decodePixel => exact h.execDecodePixel hl
  | run n v => exact h.execRun n v
  | _ => exact ⟨_, rfl⟩

end Sys2Proof.Machine
end

section
/-! PROOFS. The pull on a stream of tokens in source memory (42_rle_decoder.md R141 to R144): which pixel it gives, and how far it
reads. -/

namespace Sys2Proof.Machine

variable {s t : State} {i : Instr} {ts : List Instr}

/-! ### Bytes at the cursor -/

/-- The bytes after those of `as`, seen from a state whose cursor has passed them. -/
theorem SourceHolds.drop {as bs : List Byte} (h : SourceHolds s (as ++ bs)) (hk : HostSideKept s t)
    (hp : t.srcPtr.toNat = s.srcPtr.toNat + as.length) : SourceHolds t bs := by
  intro k hlt
  obtain ⟨hr, hb⟩ := h (as.length + k) (by rw [List.length_append]; omega)
  rw [List.getElem_append_right' as hlt, hp, Nat.add_assoc, hk.src]
  simp only [Readable, hk.cfg, hk.par]
  exact ⟨hr, by simpa only [Nat.add_comm k] using hb⟩

theorem SourceHolds.take {as bs : List Byte} (h : SourceHolds s (as ++ bs)) : SourceHolds s as := by
  intro k hlt
  obtain ⟨hr, hb⟩ := h k (by rw [List.length_append]; omega)
  exact ⟨hr, hb.trans (List.getElem_append_left hlt)⟩

/-- The cursor moves past readable bytes without wrapping (SRC_SIZE is a 32-bit number). -/
theorem SourceHolds.toNat_add_length {bs : List Byte} (h : SourceHolds s bs) (hsize : s.cfg.srcSize ≤ 2 ^ 32 - 1) :
    (s.srcPtr + BitVec.ofNat 32 bs.length).toNat = s.srcPtr.toNat + bs.length := by
  have hptr := s.srcPtr.isLt
  have hlast : s.srcPtr.toNat + bs.length < 2 ^ 32 := by
    rcases Nat.eq_zero_or_pos bs.length with hz | hpos
    · omega
    · obtain ⟨⟨hlt, -⟩, -⟩ := h (bs.length - 1) (by omega)
      omega
  rw [BitVec.toNat_add, BitVec.toNat_ofNat, Nat.add_mod_mod, Nat.mod_eq_of_lt hlast]

/-! ### Fetching a token of the stream -/

/-- A token's bytes decode to it, whatever stands after them. -/
theorem decodeToken_tokenBytes (hi : i.isToken = true) (hw : i.wellFormed = true) (rest : List Byte) :
    decodeToken (tokenBytes i ++ rest) = .ok (i, rest) := by
  cases i with
  | lit00 v => exact (Laws.RoundTrip.lit00 v hw).2 hi rest
  | lit01 v => exact (Laws.RoundTrip.lit01 v hw).2 hi rest
  | lit10 v => exact (Laws.RoundTrip.lit10 v hw).2 hi rest
  | run n v => exact (Laws.RoundTrip.run n v hw).2 hi rest
  | _ => cases hi

/-- The fetch is the token decoder applied to the readable bytes at the cursor. -/
theorem fetchToken_of_decodeToken {bs rest : List Byte} (h : SourceHolds s bs) (hd : decodeToken bs = .ok (i, rest)) :
    fetchToken s = .ok i := by
  have hfetch : ∀ k, ∀ hk : k < bs.length, srcFetch (s.srcPtr.toNat + k) s = .ok bs[k] := fun k hk =>
    srcFetch_eq_ok.2 ⟨(h k hk).1, (h k hk).2.symm⟩
  cases bs with
  | nil => cases hd
  | cons T bs =>
    have hT : srcFetch s.srcPtr.toNat s = .ok T := hfetch 0 (Nat.succ_pos _)
    rw [fetchToken, hT]
    unfold decodeToken at hd
    dsimp only at hd ⊢
    by_cases hrun : isRunHeader T = true
    · rw [if_pos hrun] at hd ⊢
      cases bs with
      | nil => cases hd
      | cons V bs =>
        have hV : srcFetch (s.srcPtr.toNat + 1) s = .ok V := hfetch 1 (by simp)
        rw [hV]
        cases hd
        rfl
    · rw [if_neg hrun] at hd ⊢
      cases hd
      rfl

theorem fetchToken_of_holds (h : SourceHolds s (streamBytes (i :: ts))) (ht : AllTokens (i :: ts)) : fetchToken s = .ok i := by
  obtain ⟨hi, hw⟩ := ht i (by simp)
  exact fetchToken_of_decodeToken h (decodeToken_tokenBytes hi hw _)

/-- R51, R204: the fetch of a token that reaches the end of source memory. -/
theorem fetchToken_of_pastMemory (h : TokenPastMemory s s.srcPtr.toNat) : fetchToken s = .error (.fault .srcRange) := by
  unfold fetchToken
  rcases h with ⟨hoff, hlen⟩ | ⟨hsize, hlen, hrun⟩
  · rw [srcFetch_eq_memRead hlen, memRead_of_le hoff]
  · have hfirst : srcFetch s.srcPtr.toNat s = .ok (Memory.read s.src s.srcPtr.toNat) :=
      srcFetch_eq_ok.2 ⟨⟨by omega, fun hchk => Nat.lt_of_succ_lt (hlen hchk)⟩, rfl⟩
    rw [hfirst]
    dsimp only
    rw [if_pos hrun, srcFetch_eq_memRead hlen, memRead_of_le hsize.le]

/-! ### The loop of a pull -/

/-- A pull has enough fuel: any more gives the same. -/
theorem pullLoop_eq_of_pullFuel_le {k : Nat} (hsize : s.cfg.srcSize ≤ 2 ^ 32 - 1) (hp : s.pulled = none)
    (hk : pullFuel s ≤ k) : pullLoop k s = pullLoop (pullFuel s) s := by
  induction k, hk using Nat.le_induction with
  | base => rfl
  | succ k hk ih => exact (pullLoop_fuel k s hsize hk hp).trans ih

/-- R143: a pull runs the token at the cursor, and goes on after an empty run. -/
theorem nextPixel_of_fetchToken (hsize : s.cfg.srcSize ≤ 2 ^ 32 - 1) (hp : s.puller ≠ .idle) (hc : s.runCnt = 0#6)
    (hf : fetchToken s = .ok i) :
    nextPixel s = andThen (exec i { s with pulled := none }) fun t => if pullOver t = true then .next t else nextPixel t := by
  have hf' : fetchToken { s with pulled := none } = .ok i := hf
  have hcases := runToken_cases hf'
  rw [nextPixel, if_pos hc, pullFuel, pullLoop, hf']
  dsimp only
  rw [runToken_eq_exec (fetchToken_isToken hf)] at hcases ⊢
  rcases hcases with ⟨p, t, hrun, -, hpix, -⟩ | ⟨v, rfl, ⟨hr, -⟩, hrun⟩ | ⟨n, v, rfl, -, hrun⟩
  · simp [hrun, pullOver, hpix]
  · have hover : pullOver { s with pulled := none, srcPtr := s.srcPtr + 2#32 } = false := by simp [pullOver, hp]
    dsimp only at hr
    have hadd : (s.srcPtr + 2#32).toNat = s.srcPtr.toNat + 2 := by
      rw [BitVec.toNat_add, BitVec.toNat_ofNat]; omega
    simp only [hrun, andThen_next, hover, nextPixel, if_pos hc]
    refine pullLoop_eq_of_pullFuel_le (s := { s with pulled := none, srcPtr := s.srcPtr + 2#32 }) hsize rfl ?_
    simp only [pullFuel, hadd]
    omega
  · rw [hrun]
    split <;> simp [pullOver]

/-- A pull that cannot fetch its token stops the command there. -/
theorem nextPixel_of_fetchToken_error {st : Stop} (hc : s.runCnt = 0#6) (hf : fetchToken s = .error st) :
    nextPixel s = stopCommand st { s with pulled := none } := by
  have hf' : fetchToken { s with pulled := none } = .error st := hf
  rw [nextPixel, if_pos hc, pullFuel, pullLoop, hf']

/-! ### The meaning of a token, by its pixels -/

theorem overBudget_eq_false {puller : Puller} {n : BitVec 6} (h : ∀ budget, puller = .drawImage budget → n.toNat ≤ budget) :
    overBudget puller n = false := by
  cases puller with
  | drawImage budget => simpa [overBudget] using h budget rfl
  | _ => rfl

/-- `t` is `s` after a token of `n` bytes whose first pixel is `p`; the others, `ps`, are the rest of a run. -/
structure Yields (s t : State) (n : Nat) (p : Byte) (ps : List Byte) : Prop where
  only : DecoderOnly s t
  pulled : t.pulled = some p
  run : List.replicate t.runCnt.toNat t.runVal = ps
  srcPtr : t.srcPtr = s.srcPtr + BitVec.ofNat 32 n

theorem takeLiteral_yields (T : Byte) (hc : s.runCnt = 0#6) : ∃ t, takeLiteral T s = .next t ∧ Yields s t 1 T [] :=
  ⟨_, rfl, by constructor <;> rfl, rfl, by simp [hc], rfl⟩

theorem execRun_yields {n : BitVec 6} {m : Nat} (v : Byte) (hn : n.toNat = m + 1) (hover : overBudget s.puller n = false) :
    ∃ t, execRun n v s = .next t ∧ Yields s t 2 v (List.replicate m v) := by
  have hne : n ≠ 0#6 := by rintro rfl; simp at hn
  have hrest : (n - 1#6).toNat = m := by rw [BitVec.toNat_sub]; simp; omega
  refine ⟨{ s with srcPtr := s.srcPtr + 2#32, runCnt := n - 1#6, runVal := v, pulled := some v }, ?_,
    by constructor <;> rfl, rfl, by rw [hrest], rfl⟩
  simp [execRun, hover, hne]

/-- R141, R142: a token within the budget gives its first pixel and leaves the others as the rest of a run. -/
theorem exec_of_tokenPixels_cons {p : Byte} {ps : List Byte} (hi : i.isToken = true) (hpix : tokenPixels i = p :: ps)
    (hb : ∀ budget, s.puller = .drawImage budget → (tokenPixels i).length ≤ budget) (hc : s.runCnt = 0#6) :
    ∃ t, exec i s = .next t ∧ Yields s t (tokenBytes i).length p ps := by
  cases i with
  | lit00 T => cases hpix; exact takeLiteral_yields p hc
  | lit01 T => cases hpix; exact takeLiteral_yields p hc
  | lit10 T => cases hpix; exact takeLiteral_yields p hc
  | run n v =>
    have hover : overBudget s.puller n = false := overBudget_eq_false fun b h => by simpa [tokenPixels] using hb b h
    obtain ⟨m, hm⟩ : ∃ m, n.toNat = m + 1 := Nat.exists_eq_succ_of_ne_zero fun h => by simp [tokenPixels, h] at hpix
    rw [tokenPixels, hm, List.replicate_succ] at hpix
    cases hpix
    exact execRun_yields p hm hover
  | _ => cases hi

/-- R144: a token without a pixel is an empty run, which is consumed. -/
theorem exec_of_tokenPixels_nil (hi : i.isToken = true) (hpix : tokenPixels i = []) :
    exec i s = .next { s with srcPtr := s.srcPtr + BitVec.ofNat 32 (tokenBytes i).length } := by
  cases i with
  | run n v =>
    obtain rfl : n = 0#6 := BitVec.eq_of_toNat_eq (by simpa [tokenPixels] using hpix)
    have hover : overBudget s.puller 0#6 = false := overBudget_eq_false fun _ _ => Nat.zero_le _
    simp [exec, execRun, hover, tokenBytes]
  | _ => cases hi <;> cases hpix

/-! ### The pull on a stream -/

/-- The pixels the decoder has before it: the rest of a run, then those of the tokens. -/
def decoderSupply (s : State) (ts : List Instr) : List Byte := List.replicate s.runCnt.toNat s.runVal ++ streamPixels ts

theorem decoderSupply_of_runCnt (h : s.runCnt = 0#6) (ts : List Instr) : decoderSupply s ts = streamPixels ts := by
  simp [decoderSupply, h]

theorem decoderSupply_eq_nil : decoderSupply s ts = [] ↔ s.runCnt = 0#6 ∧ streamPixels ts = [] := by
  rw [decoderSupply, List.append_eq_nil_iff, List.replicate_eq_nil_iff, ← BitVec.toNat_inj, BitVec.toNat_zero]

theorem streamPixels_cons (i : Instr) (ts : List Instr) : streamPixels (i :: ts) = tokenPixels i ++ streamPixels ts := rfl

theorem streamBytes_cons (i : Instr) (ts : List Instr) : streamBytes (i :: ts) = tokenBytes i ++ streamBytes ts := rfl

theorem streamBytes_append (ts us : List Instr) : streamBytes (ts ++ us) = streamBytes ts ++ streamBytes us :=
  List.flatMap_append

theorem AllTokens.tail (h : AllTokens (i :: ts)) : AllTokens ts := fun j hj => h j (List.mem_cons_of_mem i hj)

/-- R144: a pull passes an empty run at the cursor. -/
theorem nextPixel_of_tokenPixels_nil (hsize : s.cfg.srcSize ≤ 2 ^ 32 - 1) (hp : s.puller ≠ .idle) (hc : s.runCnt = 0#6)
    (ht : AllTokens (i :: ts)) (h : SourceHolds s (streamBytes (i :: ts))) (hpix : tokenPixels i = []) :
    ∃ t, nextPixel s = nextPixel t ∧ DecoderOnly s t ∧ t.runCnt = 0#6 ∧
      t.srcPtr.toNat = s.srcPtr.toNat + (tokenBytes i).length := by
  obtain ⟨hi, -⟩ := ht i (by simp)
  refine ⟨{ s with pulled := none, srcPtr := s.srcPtr + BitVec.ofNat 32 (tokenBytes i).length }, ?_,
    by constructor <;> rfl, hc, h.take.toNat_add_length hsize⟩
  rw [nextPixel_of_fetchToken hsize hp hc (fetchToken_of_holds h ht), exec_of_tokenPixels_nil hi hpix, andThen_next, if_neg]
  simp [pullOver, hp]

/-- R144: a pull passes any number of empty runs. -/
theorem nextPixel_of_streamPixels_nil (ts : List Instr) : ∀ {s : State}, s.cfg.srcSize ≤ 2 ^ 32 - 1 → s.puller ≠ .idle →
    s.runCnt = 0#6 → AllTokens ts → SourceHolds s (streamBytes ts) → streamPixels ts = [] →
    ∃ t, nextPixel s = nextPixel t ∧ DecoderOnly s t ∧ t.runCnt = 0#6 ∧
      t.srcPtr.toNat = s.srcPtr.toNat + (streamBytes ts).length := by
  induction ts with
  | nil => exact fun _ _ hc _ _ _ => ⟨_, rfl, .refl _, hc, rfl⟩
  | cons i ts ih =>
    intro s hsize hp hc ht h hpix
    obtain ⟨hpi, hpts⟩ := List.append_eq_nil_iff.1 hpix
    obtain ⟨t, hn, hd, hct, hptr⟩ := nextPixel_of_tokenPixels_nil hsize hp hc ht h hpi
    obtain ⟨u, hn', hd', hcu, hptr'⟩ := ih (s := t) (by rwa [hd.cfg]) (by rwa [hd.puller]) hct ht.tail
      (h.drop hd.hostSideKept hptr) hpts
    exact ⟨u, hn.trans hn', hd.trans hd', hcu, by rw [hptr', hptr, streamBytes_cons, List.length_append, Nat.add_assoc]⟩

/-- A pull takes `p`, the first of the pixels before the decoder, from the run left over or from the first of the tokens `ts`, and
has `ps` before it then. -/
def PullTakes (s : State) (ts : List Instr) (p : Byte) (ps : List Byte) : Prop :=
  ∃ t us vs, nextPixel s = .next t ∧ DecoderOnly s t ∧ t.pulled = some p ∧ ts = us ++ vs ∧
    t.srcPtr.toNat = s.srcPtr.toNat + (streamBytes us).length ∧ decoderSupply t vs = ps

/-- R142, R143: from tokens with pixels a pull gives the first; the others are still before the decoder. -/
theorem nextPixel_of_streamPixels_cons (ts : List Instr) : ∀ {s : State} {p : Byte} {ps : List Byte},
    s.cfg.srcSize ≤ 2 ^ 32 - 1 → s.puller ≠ .idle → s.runCnt = 0#6 → AllTokens ts → SourceHolds s (streamBytes ts) →
    (∀ budget, s.puller = .drawImage budget → (streamPixels ts).length ≤ budget) → streamPixels ts = p :: ps →
    PullTakes s ts p ps := by
  induction ts with
  | nil => intro _ _ _ _ _ _ _ _ _ hpix; cases hpix
  | cons i ts ih =>
    intro s p ps hsize hp hc ht h hb hpix
    obtain ⟨hi, -⟩ := ht i (by simp)
    rw [streamPixels_cons] at hpix
    simp only [streamPixels_cons, List.length_append] at hb
    cases hpi : tokenPixels i with
    | nil =>
      obtain ⟨t, hn, hd, hct, hptr⟩ := nextPixel_of_tokenPixels_nil hsize hp hc ht h hpi
      rw [hpi, List.nil_append] at hpix
      obtain ⟨u, us, vs, hn', hd', hpu, rfl, hptr', hsup⟩ := ih (s := t) (by rwa [hd.cfg]) (by rwa [hd.puller]) hct ht.tail
        (h.drop hd.hostSideKept hptr) (fun b hbt => le_of_add_le_right (hb b (hd.puller.symm.trans hbt))) hpix
      refine ⟨u, i :: us, vs, hn.trans hn', hd.trans hd', hpu, rfl, ?_, hsup⟩
      rw [hptr', hptr, streamBytes_cons, List.length_append, Nat.add_assoc]
    | cons q qs =>
      obtain ⟨t, hexec, ⟨hd, hpt, hrun, hptr⟩⟩ := exec_of_tokenPixels_cons (s := { s with pulled := none }) hi hpi
        (fun b hbt => le_of_add_le_left (hb b hbt)) hc
      rw [hpi, List.cons_append] at hpix
      injection hpix with hq hqs
      subst hq
      refine ⟨t, [i], ts, ?_, (DecoderOnly.drop_pulled s).trans hd, hpt, rfl, ?_, by rw [decoderSupply, hrun, hqs]⟩
      · rw [nextPixel_of_fetchToken hsize hp hc (fetchToken_of_holds h ht), hexec, andThen_next, if_pos]
        simp [pullOver, hpt]
      · rw [hptr, streamBytes_cons]
        exact (h.take.toNat_add_length hsize).trans (by simp [streamBytes])

/-- R142, R143: a pull within the budget gives the first of the pixels before the decoder. -/
theorem nextPixel_of_supply {p : Byte} {ps : List Byte} (hsize : s.cfg.srcSize ≤ 2 ^ 32 - 1) (hp : s.puller ≠ .idle)
    (ht : AllTokens ts) (h : SourceHolds s (streamBytes ts))
    (hb : ∀ budget, s.puller = .drawImage budget → (decoderSupply s ts).length ≤ budget)
    (hsup : decoderSupply s ts = p :: ps) : PullTakes s ts p ps := by
  by_cases hc : s.runCnt = 0#6
  · rw [decoderSupply_of_runCnt hc] at hb hsup
    exact nextPixel_of_streamPixels_cons ts hsize hp hc ht h hb hsup
  · obtain ⟨m, hm⟩ : ∃ m, s.runCnt.toNat = m + 1 :=
      Nat.exists_eq_succ_of_ne_zero fun e => hc (BitVec.eq_of_toNat_eq e)
    have hrest : (s.runCnt - 1#6).toNat = m := by rw [BitVec.toNat_sub]; simp; omega
    rw [decoderSupply, hm, List.replicate_succ, List.cons_append] at hsup
    injection hsup with hv hps
    refine ⟨{ s with runCnt := s.runCnt - 1#6, pulled := some s.runVal }, [], ts, by rw [nextPixel, if_neg hc],
      by constructor <;> rfl, by rw [hv], rfl, rfl, ?_⟩
    rw [decoderSupply, hrest, hps]

end Sys2Proof.Machine
end

section
/-! PROOFS. DRAW_IMAGE on a stream of tokens in source memory (43_pixel_pair_packer.md R160 to R165): which operations it has
issued when it pulls a given token. -/

namespace Sys2Proof.Machine

variable {s t u : State} {ts us vs : List Instr} {ops ops' : List SinkOp}

/-! ### What drawing changes -/

/-- `t` is reached from `s` within an image that goes on: the tokens `us` have been consumed and the operations `ops` issued. -/
structure Draws (s t : State) (us : List Instr) (ops : List SinkOp) : Prop extends HostSideKept s t where
  err : t.err = s.err
  pixelValid : t.pixelValid = s.pixelValid
  pixelValue : t.pixelValue = s.pixelValue
  pulling : s.puller ≠ .idle → t.puller ≠ .idle
  srcPtr : t.srcPtr.toNat = s.srcPtr.toNat + (streamBytes us).length
  trace : t.trace = s.trace ++ ops

theorem Draws.refl (s : State) : Draws s s [] [] where
  toHostSideKept := ⟨rfl, rfl, rfl, rfl, rfl, rfl⟩
  err := rfl
  pixelValid := rfl
  pixelValue := rfl
  pulling := id
  srcPtr := rfl
  trace := (List.append_nil _).symm

theorem Draws.trans (h : Draws s t us ops) (k : Draws t u vs ops') : Draws s u (us ++ vs) (ops ++ ops') where
  toHostSideKept := h.toHostSideKept.trans k.toHostSideKept
  err := k.err.trans h.err
  pixelValid := k.pixelValid.trans h.pixelValid
  pixelValue := k.pixelValue.trans h.pixelValue
  pulling := k.pulling ∘ h.pulling
  srcPtr := by rw [k.srcPtr, h.srcPtr, streamBytes_append, List.length_append, Nat.add_assoc]
  trace := by rw [k.trace, h.trace, List.append_assoc]

/-- A change of the decoder's own state issues nothing. -/
theorem DecoderOnly.draws (h : DecoderOnly s t) (hp : t.srcPtr.toNat = s.srcPtr.toNat + (streamBytes us).length) :
    Draws s t us [] where
  toHostSideKept := h.hostSideKept
  err := h.err
  pixelValid := h.pixelValid
  pixelValue := h.pixelValue
  pulling := by rw [h.puller]; exact id
  srcPtr := hp
  trace := by simp [State.trace, h.sinkLog]

theorem Draws.arm (h : Draws s t us ops) (n : Nat) : Draws s { t with puller := .drawImage n } us ops :=
  { h with pulling := fun _ => nofun }

/-- The bytes after the consumed tokens stand at the cursor. -/
theorem Draws.sourceHolds (h : Draws s t us ops) (hs : SourceHolds s (streamBytes (us ++ vs))) :
    SourceHolds t (streamBytes vs) := by
  rw [streamBytes_append] at hs
  exact hs.drop h.toHostSideKept h.srcPtr

theorem startScanline_draws (y : Nat) (s : State) :
    Draws s (startScanline y s) [] [.vramSetCursor (rowStart s.cfg s.par y)] :=
  { Draws.refl s with trace := trace_issue _ s }

theorem endScanline_draws (s : State) : Draws s (endScanline s) [] [] := by
  constructor
  case toHostSideKept => exact hostSideKept_endScanline s
  all_goals simp [streamBytes, State.trace]

/-! ### The packer -/

/-- The pixel that waits for its pair (10_state.md R39). -/
def pendingPixels (s : State) : List Byte := if s.pendValid = true then [s.pendByte] else []

/-- R160, R162: a pixel that completes a pair issues its word; the other pixels pair up after it. -/
theorem pairWords_pendingPixels (p : Byte) (ps : List Byte) (s : State) :
    pairWords (pendingPixels s ++ p :: ps) =
      pairWords (pendingPixels s ++ [p]) ++ pairWords (pendingPixels (packPixel p s) ++ ps) := by
  unfold packPixel
  by_cases h : s.pendValid = true
  · simp [pendingPixels, h, pairWords]
  · simp [pendingPixels, h, pairWords]

theorem packPixel_draws (p : Byte) (s : State) :
    Draws s (packPixel p s) [] ((pairWords (pendingPixels s ++ [p])).map .vramWrite) := by
  unfold packPixel pendingPixels
  split
  · exact { Draws.refl s with trace := trace_issue _ s }
  · exact { Draws.refl s with }

theorem packPixel_pendValid (p : Byte) (s : State) : (packPixel p s).pendValid = !s.pendValid := by
  unfold packPixel
  split <;> simp_all

theorem packPixel_warn (p : Byte) (s : State) : (packPixel p s).warn = s.warn := by
  unfold packPixel
  split <;> rfl

theorem packPixel_decoderSupply (p : Byte) (s : State) (ts : List Instr) :
    decoderSupply (packPixel p s) ts = decoderSupply s ts := by
  unfold packPixel
  split <;> rfl

/-! ### One scanline -/

/-- R160 to R164: within the budget, one pixel is pulled and packed. -/
theorem drawPixels_succ_of_supply {p : Byte} {ps : List Byte} {left : Nat} (hsize : s.cfg.srcSize ≤ 2 ^ 32 - 1)
    (ht : AllTokens ts) (h : SourceHolds s (streamBytes ts)) (hsup : decoderSupply s ts = p :: ps) (hleft : ps.length ≤ left) :
    ∃ t us vs, drawPixels (left + 1) s = drawPixels left t ∧ ts = us ++ vs ∧ decoderSupply t vs = ps ∧
      Draws s t us ((pairWords (pendingPixels s ++ [p])).map .vramWrite) ∧ t.warn = s.warn ∧ t.pendValid = (!s.pendValid) ∧
      pairWords (pendingPixels s ++ p :: ps) = pairWords (pendingPixels s ++ [p]) ++ pairWords (pendingPixels t ++ ps) := by
  have hb : ∀ budget, Puller.drawImage (left + 1) = .drawImage budget → (decoderSupply s ts).length ≤ budget := by
    intro budget hbudget
    cases hbudget
    simpa [hsup] using hleft
  obtain ⟨v, us, vs, hn, hd, hpv, rfl, hptr, hsupv⟩ :=
    nextPixel_of_supply (s := { s with puller := .drawImage (left + 1) }) hsize nofun ht h hb hsup
  have hpend : pendingPixels { v with pulled := none } = pendingPixels s := by
    simp [pendingPixels, hd.pendValid, hd.pendByte]
  have hpull : Draws s { v with pulled := none } us [] :=
    { hd.draws hptr with pulling := fun _ => by simp [hd.puller] }
  have hpack := hpull.trans (packPixel_draws p { v with pulled := none })
  have hwords := pairWords_pendingPixels p ps { v with pulled := none }
  rw [List.append_nil, List.nil_append, hpend] at hpack
  rw [hpend] at hwords
  refine ⟨packPixel p { v with pulled := none }, us, vs, ?_, rfl, ?_, hpack, ?_, ?_, hwords⟩
  · rw [drawPixels, hn, andThen_next, if_neg (by simp [hd.puller]), packPulled, hpv]
  · exact (packPixel_decoderSupply p _ vs).trans hsupv
  · exact (packPixel_warn p _).trans hd.warn
  · exact (packPixel_pendValid p _).trans (congrArg (! ·) hd.pendValid)

/-- The pixels before the decoder, no more than the scanline has left, are drawn one after the other. -/
theorem drawPixels_of_supply (ps : List Byte) : ∀ {s : State} {ts : List Instr} (left : Nat),
    s.cfg.srcSize ≤ 2 ^ 32 - 1 → AllTokens ts → SourceHolds s (streamBytes ts) → decoderSupply s ts = ps →
    ∃ t us vs, drawPixels (ps.length + left) s = drawPixels left t ∧ ts = us ++ vs ∧ decoderSupply t vs = [] ∧
      Draws s t us ((pairWords (pendingPixels s ++ ps)).map .vramWrite) ∧ t.warn = s.warn ∧
      t.pendValid = (s.pendValid ^^ decide (ps.length % 2 = 1)) := by
  induction ps with
  | nil =>
    intro s ts left _ _ _ hsup
    have hnone : pairWords (pendingPixels s ++ []) = [] := by unfold pendingPixels; split <;> rfl
    refine ⟨s, [], ts, by rw [List.length_nil, Nat.zero_add], rfl, hsup, ?_, rfl, by simp⟩
    rw [hnone]
    exact .refl s
  | cons p ps ih =>
    intro s ts left hsize ht h hsup
    obtain ⟨v, us, vs, hone, rfl, hsupv, hdrawsv, hwarnv, hpendv, hwords⟩ :=
      drawPixels_succ_of_supply hsize ht h hsup (Nat.le_add_right ps.length left)
    obtain ⟨t, us', vs', hmany, rfl, hsupt, hdraws, hwarn, hpend⟩ := ih left (by rwa [hdrawsv.cfg])
      (fun i hi => ht i (List.mem_append_right us hi)) (hdrawsv.sourceHolds h) hsupv
    refine ⟨t, us ++ us', vs', ?_, (List.append_assoc _ _ _).symm, hsupt, ?_, hwarn.trans hwarnv, ?_⟩
    · rw [List.length_cons, Nat.add_right_comm, hone, hmany]
    · rw [hwords, List.map_append]
      exact hdrawsv.trans hdraws
    · rw [hpend, hpendv, List.length_cons]
      rcases Nat.mod_two_eq_zero_or_one ps.length with hpar | hpar <;> simp [hpar, Nat.add_mod]

/-- R161, R168: the scanline's operations up to the end of the given tokens. -/
theorem drawPixels_startScanline (y : Nat) (hsize : s.cfg.srcSize ≤ 2 ^ 32 - 1) (hc : s.runCnt = 0#6)
    (hpend : s.pendValid = false) (ht : AllTokens ts) (h : SourceHolds s (streamBytes ts)) (left : Nat) :
    ∃ t us vs, drawPixels ((streamPixels ts).length + left) (startScanline y s) = drawPixels left t ∧ ts = us ++ vs ∧
      decoderSupply t vs = [] ∧ Draws s t us (scanlineOps s.cfg s.par y (streamPixels ts)) ∧ t.warn = s.warn ∧
      t.pendValid = decide ((streamPixels ts).length % 2 = 1) := by
  obtain ⟨t, us, vs, hdraw, hts, hsup, hdraws, hwarn, hpendt⟩ :=
    drawPixels_of_supply (streamPixels ts) (s := startScanline y s) left hsize ht h (decoderSupply_of_runCnt hc ts)
  refine ⟨t, us, vs, hdraw, hts, hsup, ?_, hwarn, ?_⟩
  · have hnone : pendingPixels (startScanline y s) = [] := by simp [pendingPixels, hpend]
    rw [hnone, List.nil_append] at hdraws
    exact (startScanline_draws y s).trans hdraws
  · rw [hpendt, startScanline_pendValid, hpend, Bool.false_xor]

/-- A scanline's last token has a pixel. -/
theorem ScanlineTokens.last_streamPixels {width : Nat} (h : ScanlineTokens width (us ++ vs)) (hvs : streamPixels vs = []) :
    vs = [] := by
  obtain ⟨ht, -, hlast⟩ := h
  rcases List.eq_nil_or_concat vs with rfl | ⟨ws, i, rfl⟩
  · rfl
  · have hi := (ht i (by simp)).1
    have hpix : tokenPixels i = [] := by simp [streamPixels] at hvs; exact hvs.2
    cases i with
    | run n v =>
      obtain rfl : n = 0#6 := BitVec.eq_of_toNat_eq (by simpa [tokenPixels] using hpix)
      exact absurd (by simp) (hlast v)
    | _ => cases hi <;> cases hpix

/-- R160, R163: a complete scanline. -/
theorem drawPixels_of_scanlineTokens {row : List Instr} (y : Nat) (hsize : s.cfg.srcSize ≤ 2 ^ 32 - 1) (hc : s.runCnt = 0#6)
    (hpend : s.pendValid = false) (hrow : ScanlineTokens s.par.width.toNat row) (h : SourceHolds s (streamBytes row)) :
    ∃ t, drawPixels s.par.width.toNat (startScanline y s) = .next t ∧ t.runCnt = 0#6 ∧
      Draws s t row (scanlineOps s.cfg s.par y (streamPixels row)) ∧ t.warn = s.warn ∧
      t.pendValid = decide (s.par.width.toNat % 2 = 1) := by
  obtain ⟨t, us, vs, hdraw, rfl, hsup, hdraws, hwarn, hpendt⟩ := drawPixels_startScanline y hsize hc hpend hrow.1 h 0
  obtain ⟨hct, hvs⟩ := decoderSupply_eq_nil.1 hsup
  obtain rfl := hrow.last_streamPixels hvs
  obtain ⟨-, hlen, -⟩ := hrow
  rw [hlen] at hdraw hpendt
  rw [List.append_nil] at hdraws ⊢
  exact ⟨t, hdraw, hct, hdraws, hwarn, hpendt⟩

/-! ### The scanlines -/

/-- R160 to R163: complete scanlines are drawn one after the other. -/
theorem drawRows_of_scanlineTokens (rows : List (List Instr)) : ∀ {s : State} (y left : Nat),
    s.cfg.srcSize ≤ 2 ^ 32 - 1 → s.puller ≠ .idle → s.runCnt = 0#6 → s.pendValid = false →
    (∀ row ∈ rows, ScanlineTokens s.par.width.toNat row) → SourceHolds s (streamBytes rows.flatten) →
    ∃ t, drawRows (rows.length + left) y s = drawRows left (y + rows.length) t ∧ t.runCnt = 0#6 ∧ t.pendValid = false ∧
      Draws s t rows.flatten (imageOps s.cfg s.par y (rows.map streamPixels)) ∧
      t.warn = (s.warn || decide (s.par.width.toNat % 2 = 1 ∧ rows ≠ [])) := by
  induction rows with
  | nil =>
    intro s y left _ _ hc hpend _ _
    exact ⟨s, by rw [List.length_nil, Nat.zero_add, Nat.add_zero], hc, hpend, .refl s, by simp⟩
  | cons row rows ih =>
    intro s y left hsize hp hc hpend hrows h
    rw [List.flatten_cons] at h
    obtain ⟨v, hdraw, hcv, hrow, hwarnv, hpendv⟩ := drawPixels_of_scanlineTokens y hsize hc hpend (hrows row (by simp))
      (SourceHolds.take (streamBytes_append row rows.flatten ▸ h))
    have hend := hrow.trans (endScanline_draws v)
    rw [List.append_nil, List.append_nil] at hend
    obtain ⟨t, hdraw', hct, hpendt, hdraws, hwarn⟩ := ih (s := endScanline v) (y + 1) left (by rw [hend.cfg]; exact hsize)
      (hend.pulling hp) (by rw [endScanline_runCnt]; exact hcv) (endScanline_pendValid v)
      (by rw [hend.par]; exact fun r hr => hrows r (List.mem_cons_of_mem row hr)) (hend.sourceHolds h)
    refine ⟨t, ?_, hct, hpendt, ?_, ?_⟩
    · rw [List.length_cons, Nat.add_right_comm, drawRows, hdraw, andThen_next, if_neg (hrow.pulling hp), hdraw',
        Nat.add_right_comm y]
      rfl
    · rw [hend.cfg, hend.par] at hdraws
      exact hend.trans hdraws
    · rw [hwarn, endScanline_warn, hwarnv, hpendv, hend.par]
      by_cases hodd : s.par.width.toNat % 2 = 1 <;> simp [hodd]

/-! ### The token after them -/

/-- DRAW_IMAGE after a pull or a scanline: nothing if that has ended the command (R169), else it goes on with `f`. -/
abbrev afterPull (r : Result) (f : State → Result) : Result := andThen r fun t => if t.puller = .idle then .next t else f t

/-- What follows leaves an ended command as it is. -/
theorem andThen_afterPull (r : Result) (f : State → Result) {g : State → Result}
    (hg : ∀ t : State, t.puller = .idle → g t = .next t) :
    andThen (afterPull r f) g = afterPull r fun t => andThen (f t) g := by
  rw [andThen_assoc]
  congr 1
  funext t
  by_cases ht : t.puller = .idle
  · rw [if_pos ht, if_pos ht, andThen_next, hg t ht]
  · rw [if_neg ht, if_neg ht]

/-- R160: DRAW_IMAGE comes to pull the token after the given ones, with the budget of what is left of the scanline. -/
theorem execDrawImage_of_imageReaches {rows : List (List Instr)} (hl : s.cfg.legal = true) (h : ImageReaches s rows ts) :
    ∃ u left f, execDrawImage s = afterPull (nextPixel u) f ∧
      Draws (beginImage s) u (rows.flatten ++ ts) (reachedTrace s rows ts) ∧ u.runCnt = 0#6 ∧
      u.puller = .drawImage left ∧ (streamPixels ts).length + left = s.par.width.toNat ∧
      u.warn = decide (s.par.width.toNat % 2 = 1 ∧ rows ≠ []) := by
  have hsize := Config.srcSize_le_of_legal hl
  obtain ⟨more, hmore⟩ := Nat.exists_eq_add_of_lt h.inside
  obtain ⟨left, hleft⟩ := Nat.exists_eq_add_of_lt h.partly
  have hall : SourceHolds (beginImage s) (streamBytes (rows.flatten ++ ts)) := h.holds
  obtain ⟨v, hrows, hcv, hpendv, hdrawsv, hwarnv⟩ := drawRows_of_scanlineTokens rows (s := beginImage s) 0 (more + 1) hsize
    nofun rfl rfl h.complete (SourceHolds.take (streamBytes_append rows.flatten ts ▸ hall))
  obtain ⟨w, us, vs, hpix, rfl, hsup, hdrawsw, hwarnw, -⟩ := drawPixels_startScanline (rows.length) (by rwa [hdrawsv.cfg])
    hcv hpendv h.tokens (hdrawsv.sourceHolds hall) (left + 1)
  obtain ⟨hcw, hvs⟩ := decoderSupply_eq_nil.1 hsup
  have hw := (hdrawsv.trans hdrawsw).arm (left + 1)
  obtain ⟨u, hn, hd, hcu, hptr⟩ := nextPixel_of_streamPixels_nil vs (s := { w with puller := .drawImage (left + 1) })
    (by rwa [hw.cfg]) nofun hcw (fun i hi => h.tokens i (List.mem_append_right us hi))
    (hw.sourceHolds (by rwa [List.append_assoc])) hvs
  have hu := hw.trans (hd.draws hptr)
  rw [List.append_assoc, List.append_nil, hdrawsv.cfg, hdrawsv.par] at hu
  have hwidth : v.par.width.toNat = (streamPixels (us ++ vs)).length + (left + 1) := by rw [hdrawsv.par]; exact hleft
  obtain ⟨f, hexec⟩ : ∃ f, execDrawImage s = afterPull (nextPixel u) f := by
    rw [execDrawImage, hmore, Nat.add_assoc, hrows, Nat.zero_add, drawRows, hwidth, hpix, drawPixels, hn,
      andThen_afterPull _ _ fun _ ht => if_pos ht, andThen_afterPull _ _ fun _ ht => by rw [endImage, if_pos ht]]
    exact ⟨_, rfl⟩
  refine ⟨u, left + 1, f, hexec, hu, hcu, hd.puller, hleft.symm, ?_⟩
  rw [hd.warn]
  exact (hwarnw.trans hwarnv).trans (Bool.false_or _)

end Sys2Proof.Machine
end

section
/-! PROOFS. Reads past source memory (20_memory.md R51, 60_exceptions.md R203, R204). -/

namespace Sys2Proof.Machine

variable {s : State}

/-- R142, R146: the pull of a DECODE_PIXEL that reaches the end of source memory. -/
theorem execDecodePixel_of_pastMemory (hc : s.runCnt = 0#6) (h : TokenPastMemory s s.srcPtr.toNat) :
    ∃ u, execDecodePixel s = .fault (.srcRange u) ∧ u.trace = [] := by
  have hf := fetchToken_of_pastMemory (s := { beginCommand s with puller := .decodePixel }) h
  have hstop := nextPixel_of_fetchToken_error (s := { beginCommand s with puller := .decodePixel }) hc hf
  exact ⟨_, (congrArg (andThen · fun t => .next (latchPixel t)) hstop :), rfl⟩

/-- A pull of DRAW_IMAGE that reaches the end of source memory. -/
theorem execDrawImage_of_pastMemory {rows : List (List Instr)} {ts : List Instr} (hl : s.cfg.legal = true)
    (h : ImageReaches s rows ts) (hpast : TokenPastMemory s (reachedOffset s rows ts)) :
    ∃ u, execDrawImage s = .fault (.srcRange u) ∧ u.trace = reachedTrace s rows ts := by
  obtain ⟨u, left, f, hexec, hdraws, hc, -⟩ := execDrawImage_of_imageReaches hl h
  have hu : TokenPastMemory u u.srcPtr.toNat := by
    rw [TokenPastMemory, hdraws.cfg, hdraws.par, hdraws.src, hdraws.srcPtr]
    exact hpast
  rw [hexec, nextPixel_of_fetchToken_error hc (fetchToken_of_pastMemory hu)]
  exact ⟨_, rfl, hdraws.trace⟩

/-- R120: a palette block that SRC_LEN does not stop and that does not lie inside source memory. -/
theorem execConvertPalette_of_pastMemory (h : s.cfg.srcSize < s.par.palPtr.toNat + palBlockLen)
    (hlen : s.par.chk = true → s.par.palPtr.toNat + palBlockLen ≤ s.par.srcLen.toNat) :
    ∃ u, execConvertPalette s = .fault (.srcRange u) ∧ u.trace = [] := by
  have hpast : ¬ blockPastLen (endPulling (beginCommand s)) = true := fun hlt =>
    have ⟨hchk, hlt⟩ := (blockPastLen_iff _).1 hlt
    (hlen hchk).not_gt hlt
  rw [execConvertPalette, if_neg hpast, if_pos ((blockPastMemory_iff (endPulling (beginCommand s))).2 h)]
  exact ⟨_, rfl, rfl⟩

/-- Settles O32: each of the three readers meets the end of source memory at the read that SRC_LEN lets pass. -/
theorem readsPastSourceMemoryFault : Obligations.ReadsPastSourceMemoryFault := by
  unfold Obligations.ReadsPastSourceMemoryFault
  exact fun s => ⟨execDecodePixel_of_pastMemory, fun _ _ => execDrawImage_of_pastMemory, execConvertPalette_of_pastMemory⟩

end Sys2Proof.Machine
end

section
/-! PROOFS. Decoder and encoder (30_encoding.md R81 to R86, R93): bits decode to an instruction exactly when it is well formed
and they are its encoding. -/

namespace Sys2Proof.Machine

/-! ### Command words (R81 to R83) -/

/-- A concatenation as a number. -/
theorem toNat_append_eq_add {m n : Nat} (x : BitVec m) (y : BitVec n) : (x ++ y).toNat = x.toNat * 2 ^ n + y.toNat := by
  rw [BitVec.toNat_append, ← Nat.shiftLeft_add_eq_or_of_lt y.isLt, Nat.shiftLeft_eq]

/-- R81: a command word is its two fields. -/
theorem commandRsv_append_commandOp (w : Word) : commandRsv w ++ commandOp w = w :=
  BitVec.extractLsb'_append_extractLsb' (w := 28) (len := 4) (x := w)

/-- R82: with the reserved field zero a command word is its opcode. -/
theorem ofNat_commandOp {w : Word} (h : commandRsv w = 0#28) : BitVec.ofNat 32 (commandOp w).toNat = w := by
  conv_rhs => rw [← commandRsv_append_commandOp w, h]
  apply BitVec.eq_of_toNat_eq
  rw [BitVec.toNat_ofNat, toNat_append_eq_add, BitVec.toNat_ofNat]
  have := (commandOp w).isLt
  omega

/-- R82, R83: a command word selects an instruction exactly when it is that instruction's encoding. -/
theorem decodeCommand_eq_ok_iff (w : Word) (i : Instr) : decodeCommand w = .ok i ↔ encode i = .command w := by
  constructor
  · intro h
    unfold decodeCommand at h
    split at h
    next hrsv =>
      have hw := ofNat_commandOp hrsv
      split at h
      case h_6 => cases h
      all_goals
        next hop =>
          cases h
          rw [← hw, hop, encode]
    next => cases h
  · intro h
    cases i with
    | nop | convertPalette | drawImage | drawLine | decodePixel => cases h; rfl
    | _ => cases h

/-! ### Tokens (R84 to R86, R93) -/

/-- R84: a token's first byte is its tag and the six bits below. -/
theorem tokenTag_append_low (T : Byte) : tokenTag T ++ T.extractLsb' 0 6 = T :=
  BitVec.extractLsb'_append_extractLsb' (w := 2) (len := 6) (x := T)

/-- R85: a token that is read from bytes is well formed. -/
theorem tokenOf_wellFormed (T V : Byte) : (tokenOf T V).wellFormed = true := by
  unfold tokenOf
  split
  case h_4 => rfl
  all_goals
    next htag => exact decide_eq_true (BitVec.eq_of_toNat_eq htag)

/-- R85: the token of a run header is encoded by the two bytes it was read from. -/
theorem tokenBytes_tokenOf_run {T : Byte} (h : isRunHeader T = true) (V : Byte) :
    tokenBytes (tokenOf T V) = [T, V] := by
  have htag : tokenTag T = 0b11#2 := of_decide_eq_true h
  rw [tokenOf_run h, tokenBytes, ← htag, tokenTag_append_low]

/-- R85: the token of any other byte is encoded by that byte. -/
theorem tokenBytes_tokenOf_lit {T : Byte} (h : isRunHeader T = false) (V : Byte) : tokenBytes (tokenOf T V) = [T] := by
  rcases tokenOf_lit h V with e | e | e <;> rw [e] <;> rfl

/-- R85: a literal yields its byte. -/
theorem tokenPixels_tokenOf_lit {T : Byte} (h : isRunHeader T = false) (V : Byte) :
    tokenPixels (tokenOf T V) = [T] := by
  rcases tokenOf_lit h V with e | e | e <;> rw [e] <;> rfl

/-- R84 to R86: a list of bytes starts with a token exactly when that token is well formed and its bytes stand there. -/
theorem decodeToken_eq_ok_iff {bytes rest : List Byte} {i : Instr} :
    decodeToken bytes = .ok (i, rest) ↔ i.isToken = true ∧ i.wellFormed = true ∧ tokenBytes i ++ rest = bytes := by
  constructor
  · intro h
    cases bytes with
    | nil => cases h
    | cons T bs =>
      unfold decodeToken at h
      dsimp only at h
      by_cases hrun : isRunHeader T = true
      · rw [if_pos hrun] at h
        cases bs with
        | nil => cases h
        | cons V bs =>
          cases h
          exact ⟨tokenOf_isToken T V, tokenOf_wellFormed T V, by rw [tokenBytes_tokenOf_run hrun]; rfl⟩
      · rw [if_neg hrun] at h
        cases h
        exact ⟨tokenOf_isToken T _, tokenOf_wellFormed T _,
          by rw [tokenBytes_tokenOf_lit (Bool.eq_false_iff.2 hrun)]; rfl⟩
  · rintro ⟨hi, hw, rfl⟩
    exact decodeToken_tokenBytes hi hw rest

/-! ### One whole instruction -/

/-- A command is always well formed. -/
theorem wellFormed_of_encode_command {i : Instr} {w : Word} (h : encode i = .command w) : i.wellFormed = true := by
  cases i with
  | nop | convertPalette | drawImage | drawLine | decodePixel => rfl
  | _ => cases h

/-- A token's encoding is its bytes. -/
theorem encode_of_isToken {i : Instr} (h : i.isToken = true) : encode i = .token (tokenBytes i) := by
  cases i with
  | lit00 | lit01 | lit10 | run => rfl
  | _ => cases h

theorem isToken_of_encode_token {i : Instr} {bytes : List Byte} (h : encode i = .token bytes) : i.isToken = true := by
  cases i with
  | lit00 | lit01 | lit10 | run => rfl
  | _ => cases h

/-- Bytes are one token exactly when the token decoder reads it and leaves nothing over. -/
theorem decode_token_eq_ok_iff {bytes : List Byte} {i : Instr} :
    decode (.token bytes) = .ok i ↔ decodeToken bytes = .ok (i, []) := by
  unfold decode
  dsimp only
  split <;> next h => simp [h]

/-- R82, R84: bits decode to an instruction exactly when it is well formed and they are its encoding. -/
theorem decode_eq_ok_iff (e : Encoding) (i : Instr) : decode e = .ok i ↔ i.wellFormed = true ∧ encode i = e := by
  cases e with
  | command w =>
    exact (decodeCommand_eq_ok_iff w i).trans ⟨fun h => ⟨wellFormed_of_encode_command h, h⟩, And.right⟩
  | token bytes =>
    rw [decode_token_eq_ok_iff, decodeToken_eq_ok_iff, List.append_nil]
    constructor
    · rintro ⟨hi, hw, rfl⟩
      exact ⟨hw, encode_of_isToken hi⟩
    · rintro ⟨hw, he⟩
      have hi := isToken_of_encode_token he
      exact ⟨hi, hw, Encoding.token.inj ((encode_of_isToken hi).symm.trans he)⟩

/-- Settles O1: both directions are `decode_eq_ok_iff`. -/
theorem decodeEncodeAgree : Obligations.DecodeEncodeAgree := by
  unfold Obligations.DecodeEncodeAgree
  exact ⟨fun i hw => (decode_eq_ok_iff _ i).2 ⟨hw, rfl⟩, fun e i => (decode_eq_ok_iff e i).1⟩

/-- Settles O2: the encodings of the five commands are the numbers 0 to 4. -/
theorem opcodeMapSelectsCommands : Obligations.OpcodeMapSelectsCommands := by
  unfold Obligations.OpcodeMapSelectsCommands
  intro w i
  rw [decodeCommand_eq_ok_iff]
  cases i with
  | nop | convertPalette | drawImage | drawLine | decodePixel =>
    simp only [encode, Encoding.command.injEq, BitVec.toNat_eq, BitVec.toNat_ofNat, reduceCtorEq, and_true, and_false,
      or_false, false_or]
    omega
  | _ => simp [encode]

/-- Settles O4: the decoder evaluated on each word. -/
theorem sampleWordsDecode : Obligations.SampleWordsDecode := by
  unfold Obligations.SampleWordsDecode
  decide

/-! ### The token forms by the source's masks (R84, R93) -/

/-- R84: `b & 0xC0 == 0xC0` says that the top two bits are set. -/
theorem isRunHeader_iff_mask (b : Byte) : isRunHeader b = true ↔ b &&& 0xC0#8 = 0xC0#8 := by
  revert b; decide

/-- R85: a literal's byte is 0x00 to 0xBF. -/
theorem isRunHeader_eq_false_iff (b : Byte) : isRunHeader b = false ↔ b.toNat ≤ 191 := by
  have hlt := b.isLt
  rw [isRunHeader, decide_eq_false_iff_not, ← BitVec.toNat_inj, BitVec.extractLsb'_toNat, Nat.shiftRight_eq_div_pow,
    BitVec.toNat_ofNat]
  omega

/-- R84: `b & 0x3F` is the six bits below the tag. -/
theorem extractLsb'_low_eq_mask (b : Byte) : (b.extractLsb' 0 6).setWidth 8 = b &&& 0x3F#8 := by
  apply BitVec.eq_of_toNat_eq
  have hmask : b.toNat &&& 63 = b.toNat % 64 := Nat.and_two_pow_sub_one_eq_mod b.toNat 6
  rw [BitVec.toNat_and, BitVec.toNat_ofNat, Nat.mod_eq_of_lt (by decide), hmask, BitVec.toNat_setWidth,
    BitVec.extractLsb'_toNat, Nat.shiftRight_zero]
  omega

/-- Settles O3: the mask is the decoder's own test for a run header. -/
theorem tokenFormsByMask : Obligations.TokenFormsByMask := by
  unfold Obligations.TokenFormsByMask
  intro b v rest
  constructor
  · intro hmask
    have h := (isRunHeader_iff_mask b).2 hmask
    refine ⟨if_pos h, b.extractLsb' 0 6, extractLsb'_low_eq_mask b, ?_⟩
    rw [← tokenOf_run h v, decodeToken_eq_ok_iff, tokenBytes_tokenOf_run h]
    exact ⟨tokenOf_isToken b v, tokenOf_wellFormed b v, rfl⟩
  · intro h
    have hrun : ¬ isRunHeader b = true := h ∘ (isRunHeader_iff_mask b).1
    have hlit := Bool.eq_false_iff.2 hrun
    refine ⟨if_neg hrun, (isRunHeader_eq_false_iff b).1 hlit, tokenOf b 0#8,
      tokenPixels_tokenOf_lit hlit _, tokenOf_lit hlit _, Laws.RoundTrip.decodeToken_literal hlit rfl rest⟩

/-- Settles O22: all three rows are `takeLiteral`. -/
theorem literalYieldsItsByte : Obligations.LiteralYieldsItsByte := by
  unfold Obligations.LiteralYieldsItsByte
  exact fun _ _ => ⟨rfl, rfl, rfl⟩

end Sys2Proof.Machine
end

section
/-! PROOFS. The stream directives (30_encoding.md R92): `.pix` and `.fill` as tokens. -/

namespace Sys2Proof.Machine

/-- R92: `.run n, v` is written as the token RUN is encoded. -/
theorem runBytes_eq_tokenBytes (n : BitVec 6) (v : Byte) : runBytes n v = tokenBytes (.run n v) := by
  have hheader : 0xC0#8 ||| n.setWidth 8 = 0b11#2 ++ n := by revert n; decide
  rw [runBytes, tokenBytes, hheader]

/-- R92: `.pix v` is a literal for a byte that starts one and a run of one for a run header. -/
theorem expand_pix (v : Byte) :
    ∃ i : Instr, i.isToken = true ∧ i.wellFormed = true ∧ (Directive.pix v).expand = tokenBytes i ∧
      tokenPixels i = [v] := by
  by_cases hv : v.toNat ≤ 0xBF
  · have hlit := (isRunHeader_eq_false_iff v).2 hv
    exact ⟨tokenOf v 0#8, tokenOf_isToken v _, tokenOf_wellFormed v _,
      (if_pos hv).trans (tokenBytes_tokenOf_lit hlit _).symm, tokenPixels_tokenOf_lit hlit _⟩
  · exact ⟨.run 1#6 v, rfl, rfl, (if_neg hv).trans (runBytes_eq_tokenBytes 1#6 v), rfl⟩

/-- R92: the tokens of `.fill n, v`. -/
def fillTokens (n : Nat) (v : Byte) : List Instr :=
  List.replicate (n / 63) (.run 63#6 v) ++ if n % 63 = 0 then [] else [.run (BitVec.ofNat 6 (n % 63)) v]

theorem allTokens_fillTokens (n : Nat) (v : Byte) : AllTokens (fillTokens n v) := by
  intro i hi
  obtain ⟨m, rfl⟩ : ∃ m, i = .run m v := by
    rcases List.mem_append.1 hi with h | h
    · exact ⟨_, List.eq_of_mem_replicate h⟩
    · split at h
      · cases h
      · exact ⟨_, List.mem_singleton.1 h⟩
  exact ⟨rfl, rfl⟩

theorem expand_fill (n : Nat) (v : Byte) : (Directive.fill n v).expand = streamBytes (fillTokens n v) := by
  rw [fillTokens, streamBytes_append, streamBytes, List.flatMap_replicate, Directive.expand]
  simp only [runBytes_eq_tokenBytes]
  split <;> simp [streamBytes]

/-- R92: `n / 63` runs of 63 and one of the rest are `n` pixels. -/
theorem streamPixels_fillTokens (n : Nat) (v : Byte) : streamPixels (fillTokens n v) = List.replicate n v := by
  have hrest : streamPixels (if n % 63 = 0 then [] else [.run (BitVec.ofNat 6 (n % 63)) v]) =
      List.replicate (n % 63) v := by
    split
    next h => rw [h]; rfl
    next =>
      have hlt : n % 63 < 2 ^ 6 := by omega
      rw [streamPixels, List.flatMap_singleton, tokenPixels, BitVec.toNat_ofNat, Nat.mod_eq_of_lt hlt]
  calc streamPixels (fillTokens n v)
      = (List.replicate (n / 63) (List.replicate 63 v)).flatten ++ List.replicate (n % 63) v := by
        rw [fillTokens, streamPixels, List.flatMap_append, List.flatMap_replicate]
        exact congrArg _ hrest
    _ = List.replicate n v := by
        rw [List.flatten_replicate_replicate, List.replicate_append_replicate, Nat.div_add_mod']

/-- Settles O5: the token of `.pix` and the tokens of `.fill`. -/
theorem directivesYieldTheirPixels : Obligations.DirectivesYieldTheirPixels := by
  unfold Obligations.DirectivesYieldTheirPixels
  exact ⟨expand_pix, fun n v => ⟨fillTokens n v, allTokens_fillTokens n v, expand_fill n v, streamPixels_fillTokens n v⟩⟩

end Sys2Proof.Machine
end

section
/-! PROOFS. The palette entry formats as numbers (30_encoding.md R88, 41_palette_converter.md R121 to R123). -/

namespace Sys2Proof.Machine

/-- R121: the quantizer keeps the high nibble. -/
theorem toNat_quantize (c : Byte) : (quantize c).toNat = c.toNat / 16 := by
  have hlt := c.isLt
  rw [quantize, BitVec.extractLsb'_toNat, Nat.shiftRight_eq_div_pow]
  omega

/-- R122: the three nibbles in bits [11:0]. -/
theorem toNat_plainEntry (r g b : Byte) :
    (plainEntry r g b).toNat = r.toNat / 16 * 256 + g.toNat / 16 * 16 + b.toNat / 16 := by
  simp only [plainEntry, toNat_append_eq_add, toNat_quantize, BitVec.toNat_ofNat]
  omega

/-- R123: a tag with no bit in [11:0] stands above the plain entry. -/
theorem toNat_plainEntry_or_tag {tag : Half} (htag : tag &&& 0x0FFF#16 = 0#16) (r g b : Byte) :
    (plainEntry r g b ||| tag).toNat = tag.toNat + (plainEntry r g b).toNat := by
  have hmod : tag.toNat % 2 ^ 12 = 0 := by
    rw [← Nat.and_two_pow_sub_one_eq_mod]
    exact congrArg BitVec.toNat htag
  obtain ⟨k, hk⟩ := Nat.dvd_of_mod_eq_zero hmod
  have hplain : (plainEntry r g b).toNat < 2 ^ 12 := by
    have := r.isLt
    have := g.isLt
    have := b.isLt
    rw [toNat_plainEntry]
    omega
  rw [BitVec.toNat_or, Nat.or_comm, hk, Nat.two_pow_add_eq_or_of_lt hplain]

/-- Settles O47: a legal configuration's TAG has no bit in [11:0], so the tagged entry is a sum. -/
theorem paletteEntryFormats : Obligations.PaletteEntryFormats := by
  unfold Obligations.PaletteEntryFormats
  intro c i r g b hlegal
  obtain ⟨-, -, -, -, htag, -⟩ := c.legal_iff.1 hlegal
  refine ⟨toNat_plainEntry r g b, fun hi => if_pos hi, fun hi => ?_⟩
  rw [taggedEntry, if_neg hi, toNat_plainEntry_or_tag htag]

end Sys2Proof.Machine
end

section
/-! PROOFS. The command dispatch (40_command_dispatch.md R100 to R102): decoded words, reserved words and NOP. -/

namespace Sys2Proof.Machine

variable {s : State}

/-! ### Dispatch of a command word -/

/-- R100: a word that decodes runs its command. -/
theorem dispatchCommand_of_ok {w : Word} {i : Instr} (h : decodeCommand w = .ok i) : dispatchCommand w s = exec i s := by
  simp only [dispatchCommand, h]

/-- R102: a word that does not decode is a bad command, for whichever of the two reasons. -/
theorem dispatchCommand_of_error {w : Word} {e : DecodeError} (h : decodeCommand w = .error e) :
    dispatchCommand w s = .next (badCommand s) := by
  simp only [dispatchCommand, h]

/-- R22, R100: a write of CMD is a dispatch. -/
theorem writeReg_command (w : Word) (s : State) : writeReg 0x01#8 w s = dispatchCommand w s := if_pos rfl

/-- R100: the step that takes a host write of CMD dispatches the word written. -/
theorem step_writeCommand {w : Word} {rest : List HostTxn} (h : s.Ready) (hq : s.inbox = .writeReg 0x01#8 w :: rest) :
    step s = dispatchCommand w { s with inbox := rest } :=
  (step_of_inbox_cons h hq).trans (writeReg_command w _)

/-- A placed command word (log 1) is dispatched at the very state it was placed in. -/
theorem step_placeCommand (h : s.Ready) (w : Word) : step (placeCommand w s) = dispatchCommand w s := by
  have hplaced : (placeCommand w s).Ready := ⟨h.unfaulted, h.legal⟩
  exact step_writeCommand hplaced rfl

/-- A 32-bit table row decodes as the command word it is. -/
theorem decodeTableWord_command {w : Nat} {i : Instr} (h : decodeTableWord 32 w = some i) :
    decodeCommand (BitVec.ofNat 32 w) = .ok i := by
  cases hd : decodeCommand (BitVec.ofNat 32 w) with
  | ok j =>
    simp only [decodeTableWord, hd, Except.toOption, Option.some.injEq] at h
    rw [h]
  | error e => simp only [decodeTableWord, hd, Except.toOption, reduceCtorEq] at h

/-- Settles O18: taken from the queue and placed, the word goes to `dispatchCommand`, and it decodes. -/
theorem stepRunsDecodedCommand : Obligations.StepRunsDecodedCommand := by
  unfold Obligations.StepRunsDecodedCommand
  constructor
  · intro s w i rest hready hq hd
    exact (step_writeCommand hready hq).trans (dispatchCommand_of_ok hd)
  · intro s w i hready hd
    exact (step_placeCommand hready _).trans (dispatchCommand_of_ok (decodeTableWord_command hd))

/-! ### Reserved words -/

/-- 10_state.md R26: register 0x02 reads the status word. -/
theorem readReg_status (s : State) : readReg 0x02#8 s = statusWord s := rfl

/-- R83: a reserved word is the encoding of no command. -/
theorem decodeCommand_of_reserved {w : Word} (h : w.toNat / 16 ≠ 0 ∨ 0x5 ≤ w.toNat % 16) :
    ∃ e, decodeCommand w = .error e := by
  cases hd : decodeCommand w with
  | error e => exact ⟨e, rfl⟩
  | ok i =>
    obtain ⟨hrsv, hop⟩ := (opcodeMapSelectsCommands w i).1 hd
    omega

/-- R102: STATUS after a bad command is its code alone, the clearing of WARN included. -/
theorem readReg_status_badCommand (s : State) : readReg 0x02#8 (badCommand s) = 0x00000004#32 := by
  simp [readReg_status, statusWord]

/-- Settles O19: a reserved word does not decode, so its step is `badCommand`. -/
theorem reservedWordReportsBadCommand : Obligations.ReservedWordReportsBadCommand := by
  unfold Obligations.ReservedWordReportsBadCommand
  intro s w rest hready hq hreserved
  obtain ⟨e, hd⟩ := decodeCommand_of_reserved hreserved
  exact ⟨badCommand { s with inbox := rest }, (step_writeCommand hready hq).trans (dispatchCommand_of_error hd),
    readReg_status_badCommand _, rfl, rfl⟩

/-! ### NOP -/

/-- R100: a command starts with STATUS 0. -/
theorem readReg_status_beginCommand (s : State) : readReg 0x02#8 (beginCommand s) = 0#32 := by
  simp [readReg_status, statusWord]

/-- Settles O20: word 0 is NOP's encoding, and NOP does what every command begins with and no more. -/
theorem nopOnlyClearsStatus : Obligations.NopOnlyClearsStatus := by
  unfold Obligations.NopOnlyClearsStatus
  exact ⟨(decodeCommand_eq_ok_iff _ _).2 rfl, fun s => ⟨beginCommand s, rfl, readReg_status_beginCommand s, rfl, rfl⟩⟩

end Sys2Proof.Machine
end

section
/-! PROOFS. CONVERT_PALETTE (41_palette_converter.md R120 to R126): the check that decides how it ends, and what a converted
block leaves in PAL. -/

namespace Sys2Proof.Machine

variable {s t : State} {d : Devices} {vs : List Half}

/-! ### The checks, in the order of 60_exceptions.md R204 -/

/-- R126: in checked mode a block that ends beyond SRC_LEN. -/
theorem execConvertPalette_of_pastLen (hchk : s.par.chk = true)
    (hlen : s.par.srcLen.toNat < s.par.palPtr.toNat + palBlockLen) :
    execConvertPalette s = .next (setError .unexpectedEof (endPulling (beginCommand s))) :=
  if_pos ((blockPastLen_iff (endPulling (beginCommand s))).2 ⟨hchk, hlen⟩)

/-- R120: a block that SRC_LEN lets pass is judged by the end of source memory, then by its marker. -/
theorem execConvertPalette_of_withinLen (hlen : s.par.chk = true → s.par.palPtr.toNat + palBlockLen ≤ s.par.srcLen.toNat) :
    execConvertPalette s =
      if s.cfg.srcSize < s.par.palPtr.toNat + palBlockLen then takeFault .srcRange (endPulling (beginCommand s))
      else if Memory.read s.src s.par.palPtr.toNat = palMarker then .next (convertBlock (endPulling (beginCommand s)))
      else .next (setError .badSignature (endPulling (beginCommand s))) := by
  have hpast : ¬ blockPastLen (endPulling (beginCommand s)) = true :=
    mt (blockPastLen_iff _).1 fun ⟨hchk, hlt⟩ => (hlen hchk).not_gt hlt
  have hmem := blockPastMemory_iff (endPulling (beginCommand s))
  rw [execConvertPalette, if_neg hpast]
  by_cases hsize : s.cfg.srcSize < s.par.palPtr.toNat + palBlockLen
  · rw [if_pos (hmem.2 hsize), if_pos hsize]
    rfl
  · have hread : (endPulling (beginCommand s)).par.palPtr.toNat < (endPulling (beginCommand s)).cfg.srcSize :=
      (Nat.lt_add_of_pos_right (by decide)).trans_le (Nat.le_of_not_lt hsize)
    rw [if_neg (mt hmem.1 hsize), if_neg hsize, memRead_of_lt hread]
    rfl

/-- R120: a block inside SRC_LEN and source memory is converted or rejected by its marker. -/
theorem execConvertPalette_of_inside (hsize : s.par.palPtr.toNat + palBlockLen ≤ s.cfg.srcSize)
    (hlen : s.par.chk = true → s.par.palPtr.toNat + palBlockLen ≤ s.par.srcLen.toNat) :
    execConvertPalette s =
      if Memory.read s.src s.par.palPtr.toNat = palMarker then .next (convertBlock (endPulling (beginCommand s)))
      else .next (setError .badSignature (endPulling (beginCommand s))) :=
  (execConvertPalette_of_withinLen hlen).trans (if_neg hsize.not_gt)

/-- Settles O49: a block that passes both range checks and has another marker. -/
theorem badSignatureWritesNothing : Obligations.BadSignatureWritesNothing := by
  unfold Obligations.BadSignatureWritesNothing
  intro s hsize hlen hmarker
  exact ⟨_, (execConvertPalette_of_inside hsize hlen).trans (if_neg hmarker), rfl, rfl⟩

/-- Settles O50: the range check of checked mode ends the command, and unchecked mode does not consult SRC_LEN. -/
theorem paletteRangeCheckComesFirst : Obligations.PaletteRangeCheckComesFirst := by
  unfold Obligations.PaletteRangeCheckComesFirst
  exact fun s => ⟨fun hchk hlen => ⟨_, execConvertPalette_of_pastLen hchk hlen, rfl, rfl⟩,
    fun hchk l => uncheckedModeIgnoresSrcLen .convertPalette s l hchk⟩

/-! ### The trace of a converted block -/

/-- A pass writes its entries in ascending order; they do not depend on what has been issued. -/
theorem palettePass_trace {entry : State → Nat → Half} (hentry : ∀ op s i, entry (issue op s) i = entry s i) (left : Nat) :
    ∀ (i : Nat) (s : State), (palettePass entry left i s).trace =
      s.trace ++ (List.range' i left).map fun j => .palWrite (entry s j) := by
  induction left with
  | zero => exact fun _ s => (List.append_nil s.trace).symm
  | succ k ih =>
    intro i s
    rw [palettePass, ih, trace_issue, List.append_assoc]
    simp only [hentry]
    rfl

/-- The entries of the block at PAL_PTR as PAL gets them: the plain bank, then the tagged bank (R122, R123). -/
def blockEntries (s : State) : List Half := (List.range 256).map (blockPlain s) ++ (List.range 256).map (blockTagged s)

theorem length_blockEntries (s : State) : (blockEntries s).length = 512 := by
  simp [blockEntries]

theorem blockEntries_plain {i : Nat} (hi : i < 256) (h : i < (blockEntries s).length) :
    (blockEntries s)[i] = blockPlain s i := by
  simp [blockEntries, hi]

theorem blockEntries_tagged (i : Nat) (h : 256 + i < (blockEntries s).length) :
    (blockEntries s)[256 + i] = blockTagged s i := by
  simp [blockEntries]

/-- The tagged entries do not depend on what the first pass has issued. -/
theorem Issues.blockTagged_eq {b : Bool} (h : Issues b s t) : blockTagged t = blockTagged s := by
  obtain ⟨d, ops, rfl⟩ := h.frame
  rfl

/-- R124: the cursor, then the entries of both banks. -/
theorem convertBlock_trace (s : State) :
    (convertBlock s).trace = s.trace ++ .palSetCursor :: (blockEntries s).map .palWrite := by
  have hfirst : Issues true s (palettePass blockPlain 256 0 (issue .palSetCursor s)) :=
    .palettePass _ _ _ (Issues.refl.issue .palSetCursor rfl)
  have hplain : blockPlain (issue .palSetCursor s) = blockPlain s := rfl
  rw [convertBlock, palettePass_trace fun _ _ _ => rfl, hfirst.blockTagged_eq, palettePass_trace fun _ _ _ => rfl, hplain,
    trace_issue, blockEntries, List.map_append, List.map_map, List.map_map, List.range_eq_range']
  simp only [List.append_assoc, List.cons_append]
  rfl

/-- R124: 513 operations. -/
theorem length_convertBlock_trace (h : s.trace = []) : (convertBlock s).trace.length = 513 := by
  rw [convertBlock_trace, h, List.nil_append, List.length_cons, List.length_map, length_blockEntries]

/-! ### What a trace of palette writes leaves in PAL -/

/-- PAL holds the values `vs` from entry 0 on, and the cursor stands behind them. -/
structure PalHolds (vs : List Half) (d : Devices) : Prop where
  palWf : Memory.wf d.pal
  palCursor : d.palCursor = BitVec.ofNat 9 vs.length
  entries : ∀ k (hk : k < vs.length), Memory.read d.pal k = vs[k]

/-- 20_memory.md R56: the cursor at entry 0. -/
theorem PalHolds.palSetCursor (c : Config) (h : Memory.wf d.pal) : PalHolds [] (d.apply c .palSetCursor) := ⟨h, rfl, nofun⟩

/-- 20_memory.md R56: one more value, as long as PAL has an entry for it. -/
theorem PalHolds.palWrite (h : PalHolds vs d) (c : Config) (v : Half) (hroom : vs.length < palEntries) :
    PalHolds (vs ++ [v]) (d.apply c (.palWrite v)) where
  palWf := Memory.wf_write _ _ _ h.palWf
  palCursor := by
    rw [List.length_append, BitVec.ofNat_add, ← h.palCursor]
    rfl
  entries k hk := by
    have hcur : d.palCursor.toNat = vs.length := by
      rw [h.palCursor, BitVec.toNat_ofNat, Nat.mod_eq_of_lt hroom]
    rw [List.length_append, List.length_singleton] at hk
    rw [List.getElem_append, Devices.apply, hcur]
    split
    · next hlt => rw [Memory.read_write_other _ _ _ _ hlt.ne, h.entries k hlt]
    · next hge =>
      obtain rfl : k = vs.length := by omega
      simpa using Memory.read_write_same _ _ v h.palWf

/-- The cursor set and values written after it: PAL holds them, whatever it held before. -/
theorem palHolds_replay (c : Config) (vs : List Half) (hwf : Memory.wf d.pal) (hroom : vs.length ≤ palEntries) :
    PalHolds vs (replay c (.palSetCursor :: vs.map .palWrite) d) := by
  induction vs using List.reverseRecOn with
  | nil => exact .palSetCursor c hwf
  | append_singleton vs v ih =>
    rw [List.length_append, List.length_singleton] at hroom
    rw [List.map_append, ← List.cons_append, replay_append]
    exact (ih (Nat.le_of_succ_le hroom)).palWrite c v hroom

/-- R122, R123: a conversion puts both banks in their places. -/
theorem palHolds_convertBlock (htrace : s.trace = []) (hwf : Memory.wf s.dev.pal) :
    PalHolds (blockEntries s) (convertBlock s).dev := by
  have hacc : Accounts s (convertBlock s) := Accounts.convertBlock ⟨rfl, by rw [htrace]; rfl, by rw [htrace]; trivial⟩
  rw [hacc.replays.dev, convertBlock_trace, htrace]
  exact palHolds_replay _ _ hwf (length_blockEntries s).le

/-! ### The outcome -/

/-- Palette operations change PAL, its cursor and the trace. -/
theorem Issues.pal_frame (h : Issues true s t) :
    t = { s with dev := { s.dev with pal := t.dev.pal, palCursor := t.dev.palCursor }, sinkLog := t.sinkLog } := by
  obtain ⟨hvram, hcur⟩ := h.vram_eq
  obtain ⟨d, ops, rfl⟩ := h.frame
  simp [← hvram, ← hcur]

/-- Settles O48: the conversion's trace, what it leaves in PAL, and its frame. -/
theorem convertPaletteWritesBothBanks : Obligations.ConvertPaletteWritesBothBanks := by
  unfold Obligations.ConvertPaletteWritesBothBanks
  intro s _ hwf hsize hlen hmarker channel plain tagged
  have hpal : PalHolds (blockEntries s) (convertBlock (endPulling (beginCommand s))).dev :=
    palHolds_convertBlock (s := endPulling (beginCommand s)) rfl hwf
  have hcount := length_blockEntries s
  refine ⟨_, (execConvertPalette_of_inside hsize hlen).trans (if_pos hmarker), fun i hi => ⟨?_, ?_⟩, ?_, ?_, ?_⟩
  · exact (hpal.entries i (by omega)).trans (blockEntries_plain hi _)
  · exact (hpal.entries (256 + i) (by omega)).trans (blockEntries_tagged i _)
  · rw [hpal.palCursor, hcount]
    rfl
  · rw [convertBlock_trace, blockEntries, List.map_append, List.map_map, List.map_map]
    rfl
  · exact (issues_convertBlock (endPulling (beginCommand s))).pal_frame

/-- Settles O51: the checks leave a conversion, one of two errors, or the fault. -/
theorem convertPaletteHasNoPartialOutcome : Obligations.ConvertPaletteHasNoPartialOutcome := by
  unfold Obligations.ConvertPaletteHasNoPartialOutcome
  intro s
  by_cases hpast : s.par.chk = true ∧ s.par.srcLen.toNat < s.par.palPtr.toNat + palBlockLen
  · obtain ⟨hchk, hlt⟩ := hpast
    exact .inr (.inl ⟨_, execConvertPalette_of_pastLen hchk hlt, .inr rfl, rfl, rfl⟩)
  · have hexec := execConvertPalette_of_withinLen fun hchk => Nat.le_of_not_lt (not_and.1 hpast hchk)
    split at hexec
    · exact .inr (.inr ⟨_, hexec, rfl, rfl⟩)
    · split at hexec
      · refine .inl ⟨_, hexec, ?_, length_convertBlock_trace rfl⟩
        rw [(issues_convertBlock (endPulling (beginCommand s))).pal_frame]
        rfl
      · exact .inr (.inl ⟨_, hexec, .inl rfl, rfl, rfl⟩)

end Sys2Proof.Machine
end

section
/-! PROOFS. The tokens RUN and LIT as `exec` gives them a meaning (42_rle_decoder.md R141 to R144): a RUN within its budget and one
over it, and the frame of both. -/

namespace Sys2Proof.Machine

variable {s t : State} {n : BitVec 6} {v : Byte}

/-! ### A RUN and its budget -/

theorem overBudget_drawImage (budget : Nat) (n : BitVec 6) :
    overBudget (.drawImage budget) n = true ↔ budget < n.toNat := decide_eq_true_iff

/-- One pixel less of a run that has one (R142, R143). -/
theorem toNat_sub_one_of_ne_zero (h : n ≠ 0#6) : (n - 1#6).toNat = n.toNat - 1 := by
  have hne : n.toNat ≠ 0 := fun e => h (BitVec.eq_of_toNat_eq e)
  rw [BitVec.toNat_sub, BitVec.toNat_ofNat]
  omega

/-- R143: a RUN within its budget is consumed. -/
theorem execRun_of_within (h : overBudget s.puller n = false) :
    execRun n v s = if n = 0#6 then .next { s with srcPtr := s.srcPtr + 2#32 }
      else .next { s with srcPtr := s.srcPtr + 2#32, runCnt := n - 1#6, runVal := v, pulled := some v } :=
  if_neg (ne_true_of_eq_false h)

/-- R143, R164: a RUN over its budget stops the command. -/
theorem execRun_of_over (h : overBudget s.puller n = true) :
    execRun n v s = stopCommand (if s.par.chk = true then .error .runOverrun else .fault .runOverrun) s :=
  if_pos h

/-- R205: `raise E` in DRAW_IMAGE writes the code and clears the packer and decoder state. -/
theorem raiseError_of_drawImage {budget : Nat} (h : s.puller = .drawImage budget) (e : ErrorCode) :
    raiseError e s = { s with
      err := e.code, pendValid := false, runCnt := 0#6, runVal := 0#8, puller := .idle, pulled := none } := by
  rw [raiseError, h]
  rfl

/-- Settles O23: the budget test is false, and the two cases are those of the run's length. -/
theorem runYieldsFillByte : Obligations.RunYieldsFillByte := by
  unfold Obligations.RunYieldsFillByte
  intro n v s hbudget
  have hexec : exec (.run n v) s = _ := execRun_of_within (overBudget_eq_false hbudget)
  constructor
  · intro hz
    exact hexec.trans (if_pos hz)
  · intro hne
    exact ⟨_, hexec.trans (if_neg hne), toNat_sub_one_of_ne_zero hne, rfl⟩

/-- Settles O24: the budget test is true, and the mode chooses between the error and the fault. -/
theorem runOverBudgetIsNotConsumed : Obligations.RunOverBudgetIsNotConsumed := by
  unfold Obligations.RunOverBudgetIsNotConsumed
  intro n v s budget hp hlt
  have hover : overBudget s.puller n = true := by rw [hp]; exact (overBudget_drawImage budget n).2 hlt
  have hexec : exec (.run n v) s = _ := execRun_of_over hover
  constructor
  · intro hchk
    rw [hexec, if_pos hchk, stopCommand_error, raiseError_of_drawImage hp]
    rfl
  · intro hchk
    rw [hexec, if_neg (ne_true_of_eq_false hchk)]
    rfl

/-! ### The frame of the tokens -/

/-- Only DRAW_IMAGE gives a pull a budget that a run can exceed. -/
theorem exists_drawImage_of_overBudget {puller : Puller} (h : overBudget puller n = true) :
    ∃ budget, puller = .drawImage budget := by
  cases puller with
  | drawImage budget => exact ⟨budget, rfl⟩
  | _ => cases h

/-- What a token that does not fault can do: change the decoder's own state, or raise RUN_OVERRUN in an image. -/
theorem exec_token_eq_next {i : Instr} (hi : i.isToken = true) (h : exec i s = .next t) :
    (DecoderOnly s t ∧ ((∀ n v, i ≠ .run n v) → t.runCnt = s.runCnt ∧ t.runVal = s.runVal)) ∨
    (s.par.chk = true ∧ (∃ budget, s.puller = .drawImage budget) ∧ (∃ n v, i = .run n v) ∧
      t = raiseError .runOverrun s) := by
  cases i with
  | run n v =>
    by_cases hover : overBudget s.puller n = true
    · have hstop := (execRun_of_over (v := v) hover).symm.trans h
      split at hstop
      case isTrue hchk =>
        cases hstop
        exact .inr ⟨hchk, exists_drawImage_of_overBudget hover, ⟨n, v, rfl⟩, rfl⟩
      case isFalse => cases hstop
    · have hrun := (execRun_of_within (v := v) (Bool.eq_false_iff.2 hover)).symm.trans h
      refine .inl ⟨?_, fun hne => absurd rfl (hne n v)⟩
      split at hrun <;> cases hrun <;> constructor <;> rfl
  | lit00 T | lit01 T | lit10 T =>
    cases h
    exact .inl ⟨by constructor <;> rfl, fun _ => ⟨rfl, rfl⟩⟩
  | _ => cases hi

/-- Settles O27: the decoder's own changes and RUN_OVERRUN, each with what it leaves. -/
theorem tokenFrame : Obligations.TokenFrame := by
  unfold Obligations.TokenFrame
  intro i s t hi h
  rcases exec_token_eq_next hi h with ⟨hd, hlit⟩ | ⟨hchk, ⟨budget, hp⟩, ⟨n, v, rfl⟩, rfl⟩
  · exact ⟨hd.cfg, hd.par, hd.src, hd.dev, hd.warn, hd.pixelValid, hd.pixelValue, hd.pendByte, hd.faulted, hd.inbox,
      hd.readData, congrArg List.reverse hd.sinkLog, hlit, .inl ⟨hd.err, hd.pendValid, hd.puller⟩⟩
  · rw [raiseError_of_drawImage hp]
    exact ⟨rfl, rfl, rfl, rfl, rfl, rfl, rfl, rfl, rfl, rfl, rfl, rfl, fun hne => absurd rfl (hne n v),
      .inr ⟨rfl, hchk, rfl, rfl, rfl⟩⟩

end Sys2Proof.Machine
end

section
/-! PROOFS. The pull NextPixel (42_rle_decoder.md R143 to R145): its loop without the fuel, and the token it fetches. -/

namespace Sys2Proof.Machine

variable {s t : State} {i : Instr}

/-! ### The loop of the pull -/

/-- R143, R205: a pull is over when it has a pixel or nobody pulls any more. -/
theorem pullOver_iff (s : State) : pullOver s = true ↔ s.pulled.isSome = true ∨ s.puller = .idle := by
  rw [pullOver, Bool.or_eq_true, decide_eq_true_eq]

/-- R143: with a run left over a pull takes its next pixel. -/
theorem nextPixel_of_runCnt_ne_zero (h : s.runCnt ≠ 0#6) :
    nextPixel s = .next { s with runCnt := s.runCnt - 1#6, pulled := some s.runVal } :=
  if_neg h

/-- Settles O25: the loop's equation at a fetched token, the stop at one that is not fetched, and the run left over. -/
theorem pullRunsFetchedTokens : Obligations.PullRunsFetchedTokens := by
  unfold Obligations.PullRunsFetchedTokens
  intro s hl hp
  refine ⟨fun i hc hf => ?_, fun st hc hf => nextPixel_of_fetchToken_error hc hf, fun hc => ?_⟩
  · simp only [← pullOver_iff]
    exact nextPixel_of_fetchToken (Config.srcSize_le_of_legal hl) hp hc hf
  · exact ⟨_, nextPixel_of_runCnt_ne_zero hc, toNat_sub_one_of_ne_zero hc, rfl⟩

/-- R141 to R143: a pull ends with the first token that yields. -/
theorem nextPixel_of_exec_pulled {p : Byte} (hsize : s.cfg.srcSize ≤ 2 ^ 32 - 1) (hp : s.puller ≠ .idle) (hc : s.runCnt = 0#6)
    (hf : fetchToken s = .ok i) (hexec : exec i { s with pulled := none } = .next t) (hpulled : t.pulled = some p) :
    nextPixel s = .next t := by
  have hover : pullOver t = true := (pullOver_iff t).2 (.inl (by rw [hpulled]; rfl))
  rw [nextPixel_of_fetchToken hsize hp hc hf, hexec, andThen_next, if_pos hover]

/-! ### The fetched token -/

/-- R143: the token whose bytes stand at the cursor is the one fetched. -/
theorem fetchToken_of_tokenBytes (hi : i.isToken = true) (hw : i.wellFormed = true) (h : SourceHolds s (tokenBytes i)) :
    fetchToken s = .ok i :=
  fetchToken_of_decodeToken h (by simpa using decodeToken_tokenBytes hi hw [])

/-- R93: two bytes are enough for any token; a literal's first byte alone tells it. -/
theorem decodeToken_pair (T V : Byte) : ∃ rest, decodeToken [T, V] = .ok (tokenOf T V, rest) := by
  simp only [decodeToken_eq_ok_iff, tokenOf_isToken, tokenOf_wellFormed, true_and]
  by_cases hrun : isRunHeader T = true
  · exact ⟨[], by rw [tokenBytes_tokenOf_run hrun]; rfl⟩
  · exact ⟨[V], by rw [tokenBytes_tokenOf_lit (Bool.eq_false_iff.2 hrun)]; rfl⟩

/-- An 8-bit or 16-bit table row decodes as the token of its two bytes. -/
theorem decodeTableWord_token {nbits w : Nat} (hn : nbits = 8 ∨ nbits = 16) (h : decodeTableWord nbits w = some i) :
    tokenOf (tableTokenBytes nbits w).1 (tableTokenBytes nbits w).2 = i := by
  rcases hn with rfl | rfl <;> exact Option.some.inj h

/-! ### A placed token (log 14) -/

/-- The SRC_LEN below which, in checked mode, the two bytes at the cursor lie. -/
def placedSrcLen (s : State) : Word :=
  if s.par.chk = true ∧ s.par.srcLen.toNat < s.srcPtr.toNat + 2 then BitVec.ofNat 32 (s.srcPtr.toNat + 2) else s.par.srcLen

/-- `s` with the bytes `T`, `V` at the cursor, readable in either mode, and no run left over. -/
def withTokenAtCursor (T V : Byte) (s : State) : State :=
  { s with
    src := Memory.write (Memory.write s.src s.srcPtr.toNat T) (s.srcPtr.toNat + 1) V
    runCnt := 0#6
    par := { s.par with srcLen := placedSrcLen s } }

/-- An 8-bit or 16-bit row is placed as its two bytes at the cursor and the word of DECODE_PIXEL in the queue. -/
theorem withFetchWord_token {nbits : Nat} (hn : nbits = 8 ∨ nbits = 16) (w : Nat) (s : State) :
    s.withFetchWord nbits w =
      placeCommand 0x00000004#32 (withTokenAtCursor (tableTokenBytes nbits w).1 (tableTokenBytes nbits w).2 s) := by
  rcases hn with rfl | rfl <;> rfl

theorem lt_placedSrcLen (hchk : s.par.chk = true) (hptr : s.srcPtr.toNat + 2 < 2 ^ 32) :
    s.srcPtr.toNat + 1 < (placedSrcLen s).toNat := by
  unfold placedSrcLen
  split
  case isTrue => rw [BitVec.toNat_ofNat, Nat.mod_eq_of_lt hptr]; omega
  case isFalse hlen => exact Nat.lt_of_succ_le (Nat.le_of_not_lt fun hlt => hlen ⟨hchk, hlt⟩)

/-- The placed bytes are read back at the cursor. -/
theorem sourceHolds_withTokenAtCursor (T V : Byte) (hwf : Memory.wf s.src) (hroom : s.srcPtr.toNat + 2 ≤ s.cfg.srcSize)
    (hsize : s.cfg.srcSize ≤ 2 ^ 32 - 1) : SourceHolds (withTokenAtCursor T V s) [T, V] := by
  have hreadable : ∀ k < 2, Readable (withTokenAtCursor T V s) (s.srcPtr.toNat + k) := fun k hk =>
    ⟨(Nat.add_lt_add_left hk _).trans_le hroom, fun hchk =>
      (Nat.add_le_add_left (Nat.le_of_lt_succ hk) _).trans_lt (lt_placedSrcLen hchk (by omega))⟩
  intro k hk
  refine ⟨hreadable k hk, ?_⟩
  match k, hk with
  | 0, _ => exact (Memory.read_write_other _ _ _ V (Nat.ne_of_lt (Nat.lt_succ_self _))).trans (Memory.read_write_same _ _ T hwf)
  | 1, _ => exact Memory.read_write_same _ _ V (Memory.wf_write _ _ T hwf)

/-- Settles O26: the bytes at the cursor decode to the token, and the placed ones stand there when DECODE_PIXEL pulls. -/
theorem stepPullsTheTokenAtTheCursor : Obligations.StepPullsTheTokenAtTheCursor := by
  unfold Obligations.StepPullsTheTokenAtTheCursor
  refine ⟨fun s i hi hw h => fetchToken_of_tokenBytes hi hw h, fun s nbits w i hready hwf hroom hn hd => ?_⟩
  have hsize := Config.srcSize_le_of_legal hready.legal
  have hdecode : decodeCommand 0x00000004#32 = .ok .decodePixel := (decodeCommand_eq_ok_iff _ _).2 rfl
  obtain rfl := decodeTableWord_token hn hd
  rw [withFetchWord_token hn]
  generalize (tableTokenBytes nbits w).1 = T
  generalize (tableTokenBytes nbits w).2 = V
  have hholds : SourceHolds { beginCommand (withTokenAtCursor T V s) with puller := .decodePixel } [T, V] :=
    sourceHolds_withTokenAtCursor T V hwf hroom hsize
  obtain ⟨rest, hpair⟩ := decodeToken_pair T V
  have hplaced : (withTokenAtCursor T V s).Ready := ⟨hready.unfaulted, hready.legal⟩
  exact ⟨_, fetchToken_of_decodeToken hholds hpair, rfl, rfl, rfl, rfl, rfl, rfl, rfl,
    (step_placeCommand hplaced _).trans (dispatchCommand_of_ok hdecode)⟩

end Sys2Proof.Machine
end

section
/-! PROOFS. DECODE_PIXEL (42_rle_decoder.md R140 to R148): one pull into PIXEL, its outcomes, and the stream that repeated commands
yield. -/

namespace Sys2Proof.Machine

variable {s t u : State} {ts : List Instr}

/-! ### One pull -/

/-- The state in which DECODE_PIXEL pulls: STATUS cleared, no operation issued, budget INF. -/
abbrev beginDecode (s : State) : State := { beginCommand s with puller := .decodePixel }

theorem execDecodePixel_eq (s : State) :
    execDecodePixel s = andThen (nextPixel (beginDecode s)) fun t => .next (latchPixel t) := rfl

/-- R147: PIXEL takes the pixel of the pull. -/
theorem execDecodePixel_of_pulled {p : Byte} (hn : nextPixel (beginDecode s) = .next u) (hp : u.pulled = some p) :
    execDecodePixel s = .next (endPulling (setPixel p u)) := by
  rw [execDecodePixel_eq, hn, andThen_next, latchPixel, hp]

/-- R147, R205: a token that cannot be fetched for a reported reason clears PIXEL. -/
theorem execDecodePixel_of_fetchToken_error {e : ErrorCode} (hc : s.runCnt = 0#6)
    (hf : fetchToken (beginDecode s) = .error (.error e)) :
    execDecodePixel s = .next (endPulling (clearPixel (setError e (beginDecode s)))) := by
  rw [execDecodePixel_eq, nextPixel_of_fetchToken_error (s := beginDecode s) hc hf]
  rfl

/-- Settles O28: the pull takes the run's next pixel. -/
theorem decodePixelTakesRestOfRun : Obligations.DecodePixelTakesRestOfRun := by
  unfold Obligations.DecodePixelTakesRestOfRun
  intro s hc
  exact ⟨_, execDecodePixel_of_pulled (nextPixel_of_runCnt_ne_zero (s := beginDecode s) hc) rfl,
    toNat_sub_one_of_ne_zero hc, rfl⟩

/-- R145, R204: the fetch of a token that reaches SRC_LEN in checked mode. -/
theorem fetchToken_of_pastLen (h : TokenPastLen s s.srcPtr.toNat) : fetchToken s = .error (.error .unexpectedEof) := by
  obtain ⟨hchk, hlen | ⟨hlen, hsize, hrun⟩⟩ := h
  · rw [fetchToken, srcFetch, if_pos ⟨hchk, hlen⟩]
  · have hfirst : srcFetch s.srcPtr.toNat s = .ok (Memory.read s.src s.srcPtr.toNat) :=
      srcFetch_eq_ok.2 ⟨⟨hsize, fun _ => by omega⟩, rfl⟩
    have hfill : srcFetch (s.srcPtr.toNat + 1) s = .error (.error .unexpectedEof) := if_pos ⟨hchk, hlen.le⟩
    rw [fetchToken, hfirst]
    dsimp only
    rw [if_pos hrun, hfill]

/-- Settles O31: the fetch raises UNEXPECTED_EOF. -/
theorem decodePixelReportsEof : Obligations.DecodePixelReportsEof := by
  unfold Obligations.DecodePixelReportsEof
  intro s hc h
  exact execDecodePixel_of_fetchToken_error hc (fetchToken_of_pastLen (s := beginDecode s) h)

/-! ### One token -/

/-- A change of the decoder's own state, as one update. -/
theorem DecoderOnly.eq_update (h : DecoderOnly s t) :
    t = { s with srcPtr := t.srcPtr, runCnt := t.runCnt, runVal := t.runVal, pulled := t.pulled } := by
  cases s
  cases t
  obtain ⟨rfl, rfl, rfl, rfl, rfl, rfl, rfl, rfl, rfl, rfl, rfl, rfl, rfl, rfl, rfl⟩ := h
  rfl

/-- R142: a run that yields a pixel leaves its fill byte in RUN_VAL, whatever budget it was within. -/
theorem exec_run_runVal {n : BitVec 6} {v : Byte} (hb : overBudget s.puller n = false) (hne : tokenPixels (.run n v) ≠ [])
    (h : exec (.run n v) s = .next t) : t.runVal = v := by
  have hn : n ≠ 0#6 := by rintro rfl; exact hne rfl
  have hrun : exec (.run n v) s = _ := (execRun_of_within hb).trans (if_neg hn)
  cases hrun.symm.trans h
  rfl

/-- Settles O29: the pull runs the token at the cursor, which yields. -/
theorem decodePixelDecodesOneToken : Obligations.DecodePixelDecodesOneToken := by
  unfold Obligations.DecodePixelDecodesOneToken
  intro s i p hl hc hi hw hp h
  have hsize := Config.srcSize_le_of_legal hl
  obtain ⟨ps, hpix⟩ : ∃ ps, tokenPixels i = p :: ps := List.head?_eq_some_iff.1 hp
  have hf : fetchToken (beginDecode s) = .ok i := fetchToken_of_tokenBytes hi hw h
  obtain ⟨u, hexec, hu⟩ := exec_of_tokenPixels_cons (s := { beginDecode s with pulled := none }) hi hpix nofun hc
  obtain ⟨hd, hpulled, hrun, hptr⟩ := hu
  have hnext : nextPixel (beginDecode s) = .next u := nextPixel_of_exec_pulled hsize nofun hc hf hexec hpulled
  refine ⟨endPulling (setPixel p u), execDecodePixel_of_pulled hnext hpulled, ?_, ?_, ?_, ?_, ?_⟩
  · exact (congrArg BitVec.toNat hptr).trans (h.toNat_add_length hsize)
  · have hlen : u.runCnt.toNat = ps.length := by rw [← hrun, List.length_replicate]
    exact hlen.trans (by rw [hpix]; rfl)
  · rintro n v rfl
    exact exec_run_runVal (t := u) rfl (by rw [hpix]; nofun) hexec
  · intro hne
    rcases exec_token_eq_next hi hexec with ⟨-, hlit⟩ | ⟨-, -, ⟨n, v, hrun⟩, -⟩
    · exact (hlit hne).2
    · exact absurd hrun (hne n v)
  · rw [hd.eq_update]
    rfl

/-! ### Empty runs -/

/-- A pull that has to fetch forgets the pixel pulled before. -/
theorem nextPixel_drop_pulled (hc : s.runCnt = 0#6) : nextPixel { s with pulled := none } = nextPixel s := by
  rw [nextPixel, if_pos hc, nextPixel, if_pos hc]
  rfl

/-- R144: a pull before an empty run is the pull past it. -/
theorem nextPixel_of_emptyRun {v : Byte} (hsize : s.cfg.srcSize ≤ 2 ^ 32 - 1) (hp : s.puller ≠ .idle) (hc : s.runCnt = 0#6)
    (h : SourceHolds s (tokenBytes (.run 0#6 v))) : nextPixel s = nextPixel { s with srcPtr := s.srcPtr + 2#32 } := by
  have hgoesOn : ¬ pullOver { s with pulled := none, srcPtr := s.srcPtr + 2#32 } = true := by simp [pullOver_iff, hp]
  rw [nextPixel_of_fetchToken hsize hp hc (fetchToken_of_tokenBytes rfl rfl h), exec_of_tokenPixels_nil rfl rfl, andThen_next]
  exact (if_neg hgoesOn).trans (nextPixel_drop_pulled (s := { s with srcPtr := s.srcPtr + 2#32 }) hc)

/-- R144: any number of empty runs may stand in a row. -/
theorem nextPixel_of_emptyRuns (fills : List Byte) : ∀ {s : State}, s.cfg.srcSize ≤ 2 ^ 32 - 1 → s.puller ≠ .idle →
    s.runCnt = 0#6 → SourceHolds s (fills.flatMap fun v => tokenBytes (.run 0#6 v)) →
    nextPixel s = nextPixel { s with srcPtr := s.srcPtr + BitVec.ofNat 32 (2 * fills.length) } := by
  induction fills with
  | nil => intro s _ _ _ _; simp
  | cons v fills ih =>
    intro s hsize hp hc h
    rw [List.flatMap_cons] at h
    have hptr : (s.srcPtr + 2#32).toNat = s.srcPtr.toNat + 2 := h.take.toNat_add_length hsize
    have hrest := h.drop (t := { s with srcPtr := s.srcPtr + 2#32 }) ⟨rfl, rfl, rfl, rfl, rfl, rfl⟩ hptr
    have hpast : s.srcPtr + BitVec.ofNat 32 (2 * (fills.length + 1)) = s.srcPtr + 2#32 + BitVec.ofNat 32 (2 * fills.length) := by
      rw [Nat.mul_add_one, Nat.add_comm, BitVec.ofNat_add, BitVec.add_assoc]
    rw [nextPixel_of_emptyRun hsize hp hc h.take, List.length_cons, hpast]
    exact ih hsize hp hc hrest

/-- Settles O30: both commands make the same pull. -/
theorem decodePixelSkipsEmptyRuns : Obligations.DecodePixelSkipsEmptyRuns := by
  unfold Obligations.DecodePixelSkipsEmptyRuns
  intro s fills hl hc h
  exact congrArg (andThen · fun t => .next (latchPixel t))
    (nextPixel_of_emptyRuns (s := beginDecode s) fills (Config.srcSize_le_of_legal hl) nofun hc h)

/-! ### The outcomes -/

/-- DECODE_PIXEL's pull moves SRC_PTR forward only, and then PIXEL is set or, at SRC_LEN in checked mode, cleared (R145, R147). -/
theorem execDecodePixel_cases (hl : s.cfg.legal = true) (h : execDecodePixel s = .next t) :
    ∃ u, DecoderOnly (beginDecode s) u ∧ s.srcPtr.toNat ≤ u.srcPtr.toNat ∧
      ((∃ p, t = endPulling (setPixel p u)) ∨
       (s.par.chk = true ∧ t = endPulling (clearPixel (setError .unexpectedEof u)))) := by
  rcases nextPixel_cases (beginDecode s) (Config.srcSize_le_of_legal hl) nofun with
    ⟨p, u, hn, hd, hp, -, hptr⟩ | ⟨-, u, st, hn, hstop, hptr⟩
  · cases (execDecodePixel_of_pulled hn hp).symm.trans h
    exact ⟨u, hd, hptr, .inl ⟨p, rfl⟩⟩
  · have hd : DecoderOnly (beginDecode s) u := (DecoderOnly.drop_pulled _).trans hstop.only
    rw [execDecodePixel_eq, hn] at h
    rcases hstop.why with hf | ⟨n, v, -, hover, -⟩
    · rcases fetchToken_eq_error hf with ⟨rfl, hchk, -⟩ | ⟨rfl, -⟩
      · rw [stopCommand_error, raiseError_of_decodePixel hd.puller] at h
        cases h
        exact ⟨u, hd, hptr, .inr ⟨by rwa [hd.par] at hchk, rfl⟩⟩
      · cases h
    · rw [hd.puller] at hover
      cases hover

/-- Settles O34: the frame of the pull, and the two ends of the command. -/
theorem decodePixelFrame : Obligations.DecodePixelFrame := by
  unfold Obligations.DecodePixelFrame
  intro s t hl h
  obtain ⟨hcfg, hpar, hsrc, hinbox, hread, hfaulted⟩ := hostSideKept_exec hl h
  obtain ⟨u, hd, -, hend⟩ := execDecodePixel_cases hl h
  have htrace : u.trace = [] := congrArg List.reverse hd.sinkLog
  rcases hend with ⟨p, rfl⟩ | ⟨hchk, rfl⟩
  · exact ⟨hcfg, hpar, hsrc, hd.dev, hd.pendValid, hd.pendByte, hfaulted, hinbox, hread, htrace, hd.warn,
      .inl ⟨hd.err, rfl⟩⟩
  · exact ⟨hcfg, hpar, hsrc, hd.dev, hd.pendValid, hd.pendByte, hfaulted, hinbox, hread, htrace, hd.warn,
      .inr ⟨rfl, hchk, rfl, rfl⟩⟩

/-! ### The stream -/

/-- R147: DECODE_PIXEL puts the first of the pixels before the decoder into PIXEL; the others are before it then. -/
theorem execDecodePixel_of_supply {p : Byte} {ps : List Byte} (hl : s.cfg.legal = true) (ht : AllTokens ts)
    (h : SourceHolds s (streamBytes ts)) (hsup : decoderSupply s ts = p :: ps) :
    ∃ t vs, execDecodePixel s = .next t ∧ t.err = 0#4 ∧ t.pixelValid = true ∧ t.pixelValue = p ∧
      t.cfg = s.cfg ∧ AllTokens vs ∧ SourceHolds t (streamBytes vs) ∧ decoderSupply t vs = ps := by
  obtain ⟨u, us, vs, hn, hd, hp, rfl, hptr, hrest⟩ :=
    nextPixel_of_supply (s := beginDecode s) (Config.srcSize_le_of_legal hl) nofun ht h nofun hsup
  have hkept : HostSideKept s (endPulling (setPixel p u)) := { hd.hostSideKept with }
  rw [streamBytes_append] at h
  exact ⟨endPulling (setPixel p u), vs, execDecodePixel_of_pulled hn hp, hd.err, rfl, rfl, hd.cfg,
    fun i hi => ht i (List.mem_append_right us hi), h.drop hkept hptr, hrest⟩

/-- R140, R148: DECODE_PIXEL after DECODE_PIXEL gives the pixels before the decoder in their order. -/
theorem decodeTimes_of_supply (k : Nat) : ∀ {s : State} {ts : List Instr}, s.cfg.legal = true → AllTokens ts →
    SourceHolds s (streamBytes ts) → ∀ hk : k < (decoderSupply s ts).length,
    ∃ t, decodeTimes (k + 1) s = .next t ∧ t.err = 0#4 ∧ t.pixelValid = true ∧ t.pixelValue = (decoderSupply s ts)[k] := by
  induction k with
  | zero =>
    intro s ts hl ht h hk
    obtain ⟨p, ps, hsup⟩ := List.exists_cons_of_length_pos hk
    obtain ⟨t, vs, hexec, herr, hvalid, hvalue, -⟩ := execDecodePixel_of_supply hl ht h hsup
    refine ⟨t, ?_, herr, hvalid, by simp [hsup, hvalue]⟩
    exact andThen_eq_next.2 ⟨t, hexec, rfl⟩
  | succ k ih =>
    intro s ts hl ht h hk
    obtain ⟨p, ps, hsup⟩ := List.exists_cons_of_length_pos (Nat.zero_lt_of_lt hk)
    obtain ⟨u, vs, hexec, -, -, -, hcfg, hvs, hholds, hrest⟩ := execDecodePixel_of_supply hl ht h hsup
    have hk' : k < (decoderSupply u vs).length := by simpa [hsup, hrest] using hk
    obtain ⟨t, htimes, herr, hvalid, hvalue⟩ := ih (by rwa [hcfg]) hvs hholds hk'
    refine ⟨t, andThen_eq_next.2 ⟨u, hexec, htimes⟩, herr, hvalid, ?_⟩
    simp [hvalue, hsup, hrest]

/-- Settles O33: without a run left over the pixels before the decoder are the stream's. -/
theorem decodePixelsYieldTheStream : Obligations.DecodePixelsYieldTheStream := by
  unfold Obligations.DecodePixelsYieldTheStream
  intro ts s k hk hl ht hc h
  have hsup := decoderSupply_of_runCnt hc ts
  simpa only [hsup] using decodeTimes_of_supply k hl ht h (by rwa [hsup])

end Sys2Proof.Machine
end

section
/-! PROOFS. The decoder only moves forward (42_rle_decoder.md R143): no command decreases SRC_PTR. -/

namespace Sys2Proof.Machine

variable {s : State}

/-- `t` is reached from `s` within an image: SRC_PTR has not moved back. -/
structure Forward (s t : State) : Prop where
  cfg : t.cfg = s.cfg
  srcPtr : s.srcPtr.toNat ≤ t.srcPtr.toNat

theorem packPixel_srcPtr (p : Byte) (s : State) : (packPixel p s).srcPtr = s.srcPtr := by
  unfold packPixel; split <;> rfl

theorem endImage_srcPtr (s : State) : (endImage s).srcPtr = s.srcPtr := by
  unfold endImage; split <;> rfl

/-- Of the parts of an image only a pull moves SRC_PTR, and never back. -/
theorem Forward.imageClosed (hl : s.cfg.legal = true) : ImageClosed (Forward s) where
  size _ h := by rw [h.cfg]; exact Config.srcSize_le_of_legal hl
  pull _ _ h hd hptr _ := ⟨hd.cfg.trans h.cfg, h.srcPtr.trans hptr⟩
  arm _ _ h := { h with }
  pack a p h := ⟨(hostSideKept_packPixel p a).cfg.trans h.cfg, by rw [packPixel_srcPtr]; exact h.srcPtr⟩
  raise a e h := ⟨(raiseError_cfg e a).trans h.cfg, by rw [raiseError_srcPtr]; exact h.srcPtr⟩
  start _ _ h := { h with }
  finish a h := ⟨(endScanline_cfg a).trans h.cfg, by rw [endScanline_srcPtr]; exact h.srcPtr⟩

/-- Settles O54: a command leaves SRC_PTR or pulls. -/
theorem noCommandMovesSrcPtrBack : Obligations.NoCommandMovesSrcPtrBack := by
  unfold Obligations.NoCommandMovesSrcPtrBack
  intro i s t hl hi h
  have hkeeps (hin : i = .nop ∨ i = .convertPalette ∨ i = .drawLine) : s.srcPtr.toNat ≤ t.srcPtr.toNat := by
    obtain ⟨-, hdecoder, -⟩ := eachCommandWritesOnlyItsOwnState i s t hl hi h
    obtain ⟨-, -, hptr⟩ := hdecoder hin
    rw [hptr]
  cases i with
  | nop => exact hkeeps (.inl rfl)
  | convertPalette => exact hkeeps (.inr (.inl rfl))
  | drawLine => exact hkeeps (.inr (.inr rfl))
  | decodePixel =>
    obtain ⟨u, -, hptr, ⟨p, rfl⟩ | ⟨-, rfl⟩⟩ := execDecodePixel_cases hl h
    · exact hptr
    · exact hptr
  | drawImage =>
    obtain ⟨u, hu, rfl⟩ := (Forward.imageClosed hl).execDrawImage ⟨rfl, le_rfl⟩ h
    rw [endImage_srcPtr]
    exact hu.srcPtr
  | _ => cases hi

end Sys2Proof.Machine
end

section
/-! PROOFS. DRAW_IMAGE that draws its whole image (43_pixel_pair_packer.md R160 to R168): complete scanlines of tokens, and empty
images. -/

namespace Sys2Proof.Machine

variable {s : State}

/-! ### Complete scanlines -/

/-- R160: an image that no error has ended leaves no run behind. -/
theorem endImage_of_pulling (h : s.puller ≠ .idle) : endImage s = endPulling (clearDecoder s) := if_neg h

theorem execDrawImage_of_drawRows {u : State} (h : drawRows s.par.height.toNat 0 (beginImage s) = .next u)
    (hp : u.puller ≠ .idle) : execDrawImage s = .next (endPulling (clearDecoder u)) := by
  rw [execDrawImage, h, andThen_next, endImage_of_pulling hp]

/-- Settles O35: the scanlines are drawn one after the other, and then none is left. -/
theorem drawImageDrawsItsScanlines : Obligations.DrawImageDrawsItsScanlines := by
  unfold Obligations.DrawImageDrawsItsScanlines
  intro s rows hl hlen hrows hholds
  obtain ⟨u, hdraw, -, hpend, hdraws, hwarn⟩ := drawRows_of_scanlineTokens rows (s := beginImage s) 0 0
    (Config.srcSize_le_of_legal hl) nofun rfl rfl hrows hholds
  have hexec := execDrawImage_of_drawRows (hlen ▸ hdraw) (hdraws.pulling nofun)
  refine ⟨_, hexec, hdraws.err, ?_, hdraws.trace, hdraws.srcPtr, rfl, rfl, hpend, ?_⟩
  · exact hwarn.trans (Bool.false_or _)
  · cases u
    obtain ⟨⟨rfl, rfl, rfl, rfl, rfl, rfl⟩, rfl, rfl, rfl, -⟩ := hdraws
    cases hpend
    rfl

/-! ### Empty images -/

/-- R167: without scanlines or without columns only the cursor is set, once per scanline. -/
theorem drawRows_of_empty (left : Nat) : ∀ {s : State} (y : Nat), left = 0 ∨ s.par.width = 0#16 → s.puller ≠ .idle →
    s.pendValid = false → ∃ t, drawRows left y s = .next t ∧
      t.trace = s.trace ++ (List.range' y left).map (fun r => .vramSetCursor (rowStart s.cfg s.par r)) ∧
      t = { s with sinkLog := t.sinkLog, dev := { s.dev with wrCursor := t.dev.wrCursor } } := by
  induction left with
  | zero => exact fun _ _ _ _ => ⟨_, rfl, by simp, rfl⟩
  | succ left ih =>
    intro s y hempty hp hpend
    have hwidth : s.par.width = 0#16 := hempty.resolve_left (Nat.succ_ne_zero left)
    have hrow : drawPixels s.par.width.toNat (startScanline y s) = .next (startScanline y s) := by rw [hwidth]; rfl
    have hpulling : (startScanline y s).puller ≠ .idle := hp
    have hend : endScanline (startScanline y s) = startScanline y s := if_neg (by simp [hpend])
    obtain ⟨t, hrows, htrace, ht⟩ := ih (s := startScanline y s) (y + 1) (.inr hwidth) hpulling hpend
    refine ⟨t, ?_, ?_, ht⟩
    · rw [drawRows, hrow, andThen_next, if_neg hpulling, hend, hrows]
    · rw [htrace, startScanline, trace_issue, List.append_assoc]
      rfl

/-- Settles O36: no token is fetched, and a cursor stands in the trace for each scanline. -/
theorem emptyImageDrawsNothing : Obligations.EmptyImageDrawsNothing := by
  unfold Obligations.EmptyImageDrawsNothing
  intro s hempty
  have hempty' : s.par.height.toNat = 0 ∨ s.par.width = 0#16 := hempty.imp_left (congrArg BitVec.toNat)
  obtain ⟨u, hrows, htrace, hu⟩ := drawRows_of_empty _ (s := beginImage s) 0 hempty' nofun rfl
  have htrace' : u.trace = (List.range s.par.height.toNat).map fun y => .vramSetCursor (rowStart s.cfg s.par y) := by
    rw [htrace, List.range_eq_range']
    rfl
  refine ⟨_, execDrawImage_of_drawRows hrows (by rw [hu]; nofun), fun hz => ?_, fun _ => htrace', ?_⟩
  · exact htrace'.trans (by rw [hz]; rfl)
  · rw [hu]
    rfl

end Sys2Proof.Machine
end

section
/-! PROOFS. A token that DRAW_IMAGE cannot draw (43_pixel_pair_packer.md R164, R169; 42_rle_decoder.md R145): where an image
stops. -/

namespace Sys2Proof.Machine

variable {s u : State} {rows : List (List Instr)} {ts : List Instr}

/-! ### The pull that stops -/

/-- R164: a pull that meets a RUN over its budget stops the command there. -/
theorem nextPixel_of_overBudget {n : BitVec 6} {v : Byte} (hsize : s.cfg.srcSize ≤ 2 ^ 32 - 1) (hp : s.puller ≠ .idle)
    (hc : s.runCnt = 0#6) (hf : fetchToken s = .ok (.run n v)) (hover : overBudget s.puller n = true) :
    nextPixel s =
      stopCommand (if s.par.chk = true then .error .runOverrun else .fault .runOverrun) { s with pulled := none } := by
  have hexec : exec (.run n v) { s with pulled := none } = _ := execRun_of_over hover
  rw [nextPixel_of_fetchToken hsize hp hc hf, hexec]
  split
  · simp [pullOver]
  · rfl

/-- R169: nothing of the image follows a pull that has raised. -/
theorem afterPull_raiseError (e : ErrorCode) (u : State) (f : State → Result) :
    afterPull (stopCommand (.error e) u) f = .next (raiseError e u) :=
  if_pos (raiseError_puller e u)

/-! ### The stopped image -/

/-- R169: `t` is the image begun at `s`, stopped with this code at the token after `rows` and `ts`. -/
abbrev StoppedAfter (s : State) (rows : List (List Instr)) (ts : List Instr) (t : State) (code : BitVec 4) : Prop :=
  t.err = code ∧ t.warn = decide (s.par.width.toNat % 2 = 1 ∧ rows ≠ []) ∧ t.pendValid = false ∧ t.runCnt = 0#6 ∧
    t.runVal = 0#8 ∧ t.srcPtr.toNat = reachedOffset s rows ts ∧ t.trace = reachedTrace s rows ts

/-- R169, R205: an error in the pull of the token after `rows` and `ts`. -/
theorem stoppedAfter_raiseError {left : Nat} (e : ErrorCode)
    (h : Draws (beginImage s) u (rows.flatten ++ ts) (reachedTrace s rows ts)) (hp : u.puller = .drawImage left)
    (hwarn : u.warn = decide (s.par.width.toNat % 2 = 1 ∧ rows ≠ [])) :
    StoppedAfter s rows ts (raiseError e { u with pulled := none }) e.code := by
  rw [raiseError_of_drawImage (s := { u with pulled := none }) hp]
  exact ⟨rfl, hwarn, rfl, rfl, rfl, h.srcPtr, h.trace⟩

/-- R145: the image's next token reaches SRC_LEN. -/
theorem execDrawImage_of_pastLen (hl : s.cfg.legal = true) (h : ImageReaches s rows ts)
    (hpast : TokenPastLen s (reachedOffset s rows ts)) :
    ∃ t, execDrawImage s = .next t ∧ StoppedAfter s rows ts t 2#4 := by
  obtain ⟨u, left, f, hexec, hdraws, hc, hp, -, hwarn⟩ := execDrawImage_of_imageReaches hl h
  have hu : TokenPastLen u u.srcPtr.toNat := by
    rw [TokenPastLen, hdraws.cfg, hdraws.par, hdraws.src, hdraws.srcPtr]
    exact hpast
  rw [hexec, nextPixel_of_fetchToken_error hc (fetchToken_of_pastLen hu), afterPull_raiseError]
  exact ⟨_, rfl, stoppedAfter_raiseError .unexpectedEof hdraws hp hwarn⟩

/-- R164: the image's next token is a RUN longer than what is left of its scanline. -/
theorem execDrawImage_of_overBudget {n : BitVec 6} {v : Byte} (hl : s.cfg.legal = true) (h : ImageReaches s rows ts)
    (hholds : SourceHolds s (streamBytes (rows.flatten ++ ts ++ [.run n v])))
    (hlong : s.par.width.toNat < (streamPixels ts).length + n.toNat) :
    (s.par.chk = true → ∃ t, execDrawImage s = .next t ∧ StoppedAfter s rows ts t 3#4) ∧
    (s.par.chk = false → ∃ u, execDrawImage s = .fault (.runOverrun u) ∧ u.trace = reachedTrace s rows ts) := by
  obtain ⟨u, left, f, hexec, hdraws, hc, hp, hleft, hwarn⟩ := execDrawImage_of_imageReaches hl h
  have hf : fetchToken u = .ok (.run n v) :=
    fetchToken_of_holds (ts := []) (hdraws.sourceHolds hholds) (by simp [AllTokens, Instr.isToken, Instr.wellFormed])
  have hover : overBudget u.puller n = true := by
    rw [hp, overBudget_drawImage]
    omega
  have hsize : u.cfg.srcSize ≤ 2 ^ 32 - 1 := by
    rw [hdraws.cfg]
    exact Config.srcSize_le_of_legal hl
  have hchk : u.par.chk = s.par.chk := congrArg Params.chk hdraws.par
  rw [hexec, nextPixel_of_overBudget hsize (hdraws.pulling nofun) hc hf hover, hchk]
  constructor
  · intro hchecked
    rw [if_pos hchecked, afterPull_raiseError]
    exact ⟨_, rfl, stoppedAfter_raiseError .runOverrun hdraws hp hwarn⟩
  · intro hunchecked
    rw [if_neg (ne_true_of_eq_false hunchecked)]
    exact ⟨_, rfl, hdraws.trace⟩

/-- Settles O37: a RUN longer than the rest of its scanline, and a token that reaches SRC_LEN. -/
theorem drawImageStopsAtTheFailingToken : Obligations.DrawImageStopsAtTheFailingToken := by
  unfold Obligations.DrawImageStopsAtTheFailingToken
  exact fun s rows ts hl h => ⟨fun _ _ => execDrawImage_of_overBudget hl h, execDrawImage_of_pastLen hl h⟩

end Sys2Proof.Machine
end

section
/-! PROOFS. Whatever DRAW_IMAGE answers next (43_pixel_pair_packer.md R160 to R169), said once: its scanlines keep an invariant that
counts lines and pixels, and either it completes or one of its pulls has raised. -/

namespace Sys2Proof.Machine

variable {s a b t u : State} {Q : Nat → State → Prop} {R : Nat → Nat → State → Prop}

/-! ### An invariant of the scanlines -/

/-- The image begun at `s` goes on in `a`: the host's side is as it was, no error has been raised, and somebody pulls. -/
structure GoesOn (s a : State) : Prop extends HostSideKept s a where
  err : a.err = 0#4
  puller : a.puller ≠ .idle

theorem GoesOn.srcSize_le (h : GoesOn s a) (hl : s.cfg.legal = true) : a.cfg.srcSize ≤ 2 ^ 32 - 1 := by
  rw [h.cfg]
  exact Config.srcSize_le_of_legal hl

theorem goesOn_beginImage (s : State) : GoesOn s (beginImage s) :=
  { hostSideKept_beginCommand s with err := rfl, puller := nofun }

theorem GoesOn.decoderOnly (h : GoesOn s a) (hd : DecoderOnly a b) : GoesOn s b :=
  { h.trans hd.hostSideKept with err := hd.err.trans h.err, puller := by rw [hd.puller]; exact h.puller }

theorem packPixel_err (p : Byte) (s : State) : (packPixel p s).err = s.err := by
  unfold packPixel; split <;> rfl

theorem GoesOn.packPixel (h : GoesOn s a) (p : Byte) : GoesOn s (packPixel p a) :=
  { h.trans (hostSideKept_packPixel p a) with
    err := (packPixel_err p a).trans h.err
    puller := by rw [packPixel_puller]; exact h.puller }

theorem GoesOn.endScanline (h : GoesOn s a) : GoesOn s (endScanline a) :=
  { h.trans (hostSideKept_endScanline a) with
    err := (endScanline_err a).trans h.err
    puller := by rw [endScanline_puller]; exact h.puller }

/-- An invariant of the image begun at `s`: `Q y` before scanline `y`, `R y left` within it, with `left` pixels still
to be pulled. -/
structure ScanlineInvariant (s : State) (Q : Nat → State → Prop) (R : Nat → Nat → State → Prop) : Prop where
  start : ∀ y a, y < s.par.height.toNat → GoesOn s a → Q y a → R y s.par.width.toNat (startScanline y a)
  draw : ∀ y left p a b, GoesOn s a → R y (left + 1) a → DecoderOnly { a with puller := .drawImage (left + 1) } b →
    R y left (packPixel p b)
  finish : ∀ y a, R y 0 a → Q (y + 1) (endScanline a)

/-- `t` is the image begun at `s` after a pull that has raised, within some scanline. -/
def RaisedInPull (s : State) (R : Nat → Nat → State → Prop) (t : State) : Prop :=
  ∃ y left a u e, GoesOn s a ∧ R y (left + 1) a ∧ left < s.par.width.toNat ∧
    PullStops { a with puller := .drawImage (left + 1), pulled := none } u (.error e) ∧ t = raiseError e u

/-- R160, R164: the pixels of a scanline are drawn, or one of its pulls has raised. -/
theorem ScanlineInvariant.drawPixels (h : ScanlineInvariant s Q R) (hl : s.cfg.legal = true) (y left : Nat) :
    ∀ {a t : State}, left ≤ s.par.width.toNat → GoesOn s a → R y left a → drawPixels left a = .next t →
      (GoesOn s t ∧ R y 0 t) ∨ (t.puller = .idle ∧ RaisedInPull s R t) := by
  induction left with
  | zero => intro a t _ ha hr ht; cases ht; exact .inl ⟨ha, hr⟩
  | succ left ih =>
    intro a t hleft ha hr ht
    rw [Sys2Proof.Machine.drawPixels] at ht
    rcases nextPixel_cases { a with puller := .drawImage (left + 1) } (ha.srcSize_le hl) nofun with
      ⟨p, b, hn, hd, hp, -⟩ | ⟨-, u, st, hn, hstop, -⟩
    · have hgo : GoesOn s { a with puller := .drawImage (left + 1) } := { ha with puller := nofun }
      have hdrop := hd.trans (DecoderOnly.drop_pulled b)
      rw [hn, andThen_next, if_neg (hgo.decoderOnly hd).puller, packPulled, hp] at ht
      exact ih (Nat.le_of_succ_le hleft) ((hgo.decoderOnly hdrop).packPixel p) (h.draw y left p a _ ha hr hdrop) ht
    · rw [hn] at ht
      cases st with
      | fault c => cases ht
      | error e =>
        rw [stopCommand_error, andThen_next, if_pos (raiseError_puller e u)] at ht
        cases ht
        exact .inr ⟨raiseError_puller e u, y, left, a, u, e, ha, hr, hleft, hstop, rfl⟩

/-- R160: the scanlines are drawn, or a pull in one of them has raised. -/
theorem ScanlineInvariant.drawRows (h : ScanlineInvariant s Q R) (hl : s.cfg.legal = true) (left : Nat) :
    ∀ (y : Nat) {a t : State}, y + left = s.par.height.toNat → GoesOn s a → Q y a → drawRows left y a = .next t →
      (GoesOn s t ∧ Q s.par.height.toNat t) ∨ (t.puller = .idle ∧ RaisedInPull s R t) := by
  induction left with
  | zero => intro y a t hy ha hq ht; cases ht; exact .inl ⟨ha, hy ▸ hq⟩
  | succ left ih =>
    intro y a t hy ha hq ht
    obtain ⟨b, hrow, hrest⟩ := andThen_eq_next.1 ht
    have hstart : GoesOn s (startScanline y a) := { ha with }
    rw [ha.par] at hrow
    rcases h.drawPixels hl y _ le_rfl hstart (h.start y a (by omega) ha hq) hrow with ⟨hb, hr⟩ | ⟨hidle, hraised⟩
    · rw [if_neg hb.puller] at hrest
      exact ih (y + 1) (by omega) hb.endScanline (h.finish y b hr) hrest
    · rw [if_pos hidle] at hrest
      cases hrest
      exact .inr ⟨hidle, hraised⟩

/-- R160, R169: DRAW_IMAGE completes, or a pull in one of its scanlines has raised. -/
theorem ScanlineInvariant.execDrawImage (h : ScanlineInvariant s Q R) (hl : s.cfg.legal = true) (hq : Q 0 (beginImage s))
    (ht : execDrawImage s = .next t) :
    (∃ u, GoesOn s u ∧ Q s.par.height.toNat u ∧ t = endPulling (clearDecoder u)) ∨ RaisedInPull s R t := by
  obtain ⟨u, hrows, hend⟩ := andThen_eq_next.1 ht
  cases hend
  rcases h.drawRows hl _ 0 (Nat.zero_add _) (goesOn_beginImage s) hq hrows with ⟨hu, hqu⟩ | ⟨hidle, hraised⟩
  · exact .inl ⟨u, hu, hqu, endImage_of_pulling hu.puller⟩
  · rw [endImage, if_pos hidle]
    exact .inr hraised

end Sys2Proof.Machine
end

section
/-! PROOFS. The errors of DRAW_IMAGE (43_pixel_pair_packer.md R169, 60_exceptions.md R201, R205): which there are, and where they
leave SRC_PTR and the carry state. -/

namespace Sys2Proof.Machine

variable {s t u : State}

/-- `raise E` leaves all that a token fetch reads. -/
theorem fetchToken_raiseError (e : ErrorCode) (s : State) : fetchToken (raiseError e s) = fetchToken s := by
  simp [fetchToken, srcFetch, memRead]

/-- What an image stopped by the error `e` shows: checked mode, nothing left in packer and decoder, and SRC_PTR at a token that
reaches SRC_LEN or at a RUN over a budget of the scanline. -/
structure ErrorAtToken (s t : State) : Prop where
  chk : s.par.chk = true
  pendValid : t.pendValid = false
  runCnt : t.runCnt = 0#6
  runVal : t.runVal = 0#8
  token : (t.err = 2#4 ∧ fetchToken t = .error (.error .unexpectedEof)) ∨
    (t.err = 3#4 ∧ ∃ n v budget, fetchToken t = .ok (.run n v) ∧
      1 ≤ budget ∧ budget ≤ s.par.width.toNat ∧ budget < n.toNat)

theorem RaisedInPull.errorAtToken {R : Nat → Nat → State → Prop} (h : RaisedInPull s R t) : ErrorAtToken s t := by
  obtain ⟨y, left, a, u, e, ha, -, hleft, hstop, rfl⟩ := h
  have hp : u.puller = .drawImage (left + 1) := hstop.only.puller
  have hchk : u.par.chk = s.par.chk := congrArg Params.chk (hstop.only.par.trans ha.par)
  have hclear := raiseError_of_drawImage hp e
  have hwhy : u.par.chk = true ∧ ((e = .unexpectedEof ∧ fetchToken u = .error (.error .unexpectedEof)) ∨
      (e = .runOverrun ∧ ∃ n v, fetchToken u = .ok (.run n v) ∧ overBudget u.puller n = true)) := by
    rcases hstop.why with hf | ⟨n, v, hf, hover, he⟩
    · rcases fetchToken_eq_error hf with ⟨hst, hc, -⟩ | ⟨hst, -⟩
      · cases hst
        exact ⟨hc, .inl ⟨rfl, hf⟩⟩
      · cases hst
    · split at he
      · next hc => cases he; exact ⟨hc, .inr ⟨rfl, n, v, hf, hover⟩⟩
      · cases he
  obtain ⟨hc, htoken⟩ := hwhy
  refine ⟨hchk ▸ hc, by rw [hclear], by rw [hclear], by rw [hclear], ?_⟩
  rw [fetchToken_raiseError, raiseError_err]
  refine htoken.imp ?_ ?_
  · rintro ⟨rfl, hf⟩
    exact ⟨rfl, hf⟩
  · rintro ⟨rfl, n, v, hf, hover⟩
    rw [hp, overBudget_drawImage] at hover
    exact ⟨rfl, n, v, left + 1, hf, Nat.succ_pos left, hleft, hover⟩

/-- Between scanlines no pixel is pending (R163). -/
theorem pendValid_scanlineInvariant (s : State) :
    ScanlineInvariant s (fun _ a => a.pendValid = false) fun _ _ _ => True where
  start _ _ _ _ _ := trivial
  draw _ _ _ _ _ _ _ _ := trivial
  finish _ a _ := endScanline_pendValid a

/-- Settles O38: a completed image has no error, and a stopped one stands at its failing token. -/
theorem drawImageErrorLeavesSrcPtrAtToken : Obligations.DrawImageErrorLeavesSrcPtrAtToken := by
  unfold Obligations.DrawImageErrorLeavesSrcPtrAtToken
  intro s t hl h
  rcases (pendValid_scanlineInvariant s).execDrawImage hl rfl h with ⟨u, hu, hpend, rfl⟩ | hraised
  · exact ⟨hpend, rfl, rfl, .inl hu.err, fun hne => absurd hu.err hne, by simp [hu.err], by simp [hu.err]⟩
  · obtain ⟨hchk, hpend, hcnt, hval, ⟨herr, hf⟩ | ⟨herr, hf⟩⟩ := hraised.errorAtToken
    · exact ⟨hpend, hcnt, hval, .inr (.inl herr), fun _ => hchk, fun _ => hf, by simp [herr]⟩
    · exact ⟨hpend, hcnt, hval, .inr (.inr herr), fun _ => hchk, by simp [herr], fun _ => hf⟩

end Sys2Proof.Machine
end

section
/-! PROOFS. What DRAW_IMAGE does to VRAM (43_pixel_pair_packer.md R160 to R162): every word it writes is one of the image's. -/

namespace Sys2Proof.Machine

variable {s a b : State}

/-! ### The words of the image -/

/-- The address is that of a word of the image (R161, R162). -/
def ImageWord (s : State) (addr : Nat) : Prop :=
  ∃ y k, y < s.par.height.toNat ∧ k < s.par.width.toNat / 2 ∧ addr = (rowStart s.cfg s.par y + k) % s.cfg.vramWords

/-- VRAM in `a` reads as in `s` outside the image's words. -/
def OutsideKept (s a : State) : Prop :=
  ∀ addr, ¬ ImageWord s addr → Memory.read a.dev.vram addr = Memory.read s.dev.vram addr

theorem OutsideKept.of_vram_eq (h : OutsideKept s a) (hv : b.dev.vram = a.dev.vram) : OutsideKept s b :=
  fun addr haddr => (congrArg (Memory.read · addr) hv).trans (h addr haddr)

/-- A word written at one of the image's addresses changes nothing outside. -/
theorem OutsideKept.issue_vramWrite (h : OutsideKept s a) (hcur : ImageWord s a.dev.wrCursor) (w : Half) :
    OutsideKept s (issue (.vramWrite w) a) := fun addr haddr =>
  (Memory.read_write_other _ _ _ w fun (e : addr = a.dev.wrCursor) => haddr (e ▸ hcur)).trans (h addr haddr)

/-! ### The cursor within a scanline -/

/-- Scanline `y` with `left` pixels still to be pulled: the cursor has passed the words of the pairs drawn. -/
structure WithinScanline (s : State) (y left : Nat) (a : State) : Prop where
  line : y < s.par.height.toNat
  outside : OutsideKept s a
  cursor : ∃ k, a.dev.wrCursor = (rowStart s.cfg s.par y + k) % s.cfg.vramWords ∧
    2 * k + (pendingPixels a).length + left = s.par.width.toNat

theorem pendingPixels_of_true (h : a.pendValid = true) : pendingPixels a = [a.pendByte] := if_pos h

theorem pendingPixels_of_false (h : a.pendValid = false) : pendingPixels a = [] := if_neg (ne_true_of_eq_false h)

/-- The decoder's own state and the puller do not count. -/
theorem WithinScanline.of_eq {y left : Nat} (h : WithinScanline s y left a) (hdev : b.dev = a.dev)
    (hvalid : b.pendValid = a.pendValid) (hbyte : b.pendByte = a.pendByte) : WithinScanline s y left b where
  line := h.line
  outside := h.outside.of_vram_eq (congrArg Devices.vram hdev)
  cursor := by
    rw [pendingPixels, hdev, hvalid, hbyte]
    exact h.cursor

/-- R162: the second pixel of a pair writes the word at the cursor, which moves on; the first only waits. -/
theorem WithinScanline.packPixel {y left : Nat} (h : WithinScanline s y (left + 1) a) (hcfg : a.cfg = s.cfg) (p : Byte) :
    WithinScanline s y left (packPixel p a) := by
  obtain ⟨hy, hout, k, hcur, hcount⟩ := h
  unfold Sys2Proof.Machine.packPixel
  split
  · next hpend =>
    rw [pendingPixels_of_true hpend, List.length_singleton] at hcount
    have hword : ImageWord s a.dev.wrCursor := ⟨y, k, hy, by omega, hcur⟩
    refine ⟨hy, hout.issue_vramWrite hword _, k + 1, ?_, ?_⟩
    · show (a.dev.wrCursor + 1) % a.cfg.vramWords = _
      rw [hcur, hcfg, Nat.mod_add_mod, Nat.add_assoc]
    · rw [pendingPixels_of_false rfl, List.length_nil]
      omega
  · next hpend =>
    rw [pendingPixels_of_false (Bool.eq_false_iff.2 hpend), List.length_nil] at hcount
    refine ⟨hy, hout, k, hcur, ?_⟩
    rw [pendingPixels_of_true rfl, List.length_singleton]
    omega

/-- R161 to R163: a scanline begins with its cursor set and no pixel pending, and draws its own words only. -/
theorem withinScanline_invariant (s : State) :
    ScanlineInvariant s (fun _ a => OutsideKept s a ∧ a.pendValid = false) (WithinScanline s) where
  start y a hy ha := by
    rintro ⟨hout, hpend⟩
    refine ⟨hy, hout, 0, ?_, ?_⟩
    · rw [startScanline_dev, ha.cfg, ha.par]
      rfl
    · rw [pendingPixels_of_false (a := startScanline y a) hpend]
      exact Nat.zero_add _
  draw y left p a b ha hr hd := (hr.of_eq hd.dev hd.pendValid hd.pendByte).packPixel (hd.cfg.trans ha.cfg) p
  finish y a hr := ⟨hr.outside.of_vram_eq (congrArg Devices.vram (endScanline_dev a)), endScanline_pendValid a⟩

/-- R160, R169: whatever DRAW_IMAGE answers next, an error too, VRAM outside the image's words is as it was. -/
theorem execDrawImage_outsideKept {t : State} (hl : s.cfg.legal = true) (h : execDrawImage s = .next t) : OutsideKept s t := by
  rcases (withinScanline_invariant s).execDrawImage hl ⟨fun _ _ => rfl, rfl⟩ h with
    ⟨u, -, ⟨hout, -⟩, rfl⟩ | ⟨y, left, a, u, e, -, hr, -, hstop, rfl⟩
  · exact hout
  · exact hr.outside.of_vram_eq (congrArg Devices.vram ((raiseError_dev e u).trans hstop.only.dev))

/-- Settles O39: the frame of every instruction, that of an image's own devices, and VRAM outside the image's words. -/
theorem drawImageFrame : Obligations.DrawImageFrame := by
  unfold Obligations.DrawImageFrame
  intro s t hl h
  obtain ⟨hcfg, hpar, hsrc, hinbox, hread, hfaulted⟩ := hostSideKept_exec hl h
  have hleft := execDrawImage_leaves hl h
  refine ⟨hcfg, hpar, hsrc, hleft.pal, hleft.palCursor, hleft.pixelValid, hleft.pixelValue, hfaulted, hinbox, hread, ?_⟩
  intro addr hne
  refine execDrawImage_outsideKept hl h addr ?_
  rintro ⟨y, k, hy, hk, haddr⟩
  exact hne y k hy hk haddr

end Sys2Proof.Machine
end

section
/-! PROOFS. Plot and the plots of DRAW_LINE (44_line_rasterizer.md R180, R184, R185): their sink operations, and the one pixel byte
of VRAM each of them replaces. -/

namespace Sys2Proof.Machine

variable {s t : State} {c : Byte}

/-! ### One Plot -/

theorem plotAddr_mod (cfg : Config) (p : Params) (x y : Nat) : plotAddr cfg p x y % cfg.vramWords = plotAddr cfg p x y :=
  Nat.mod_mod _ _

/-- The word a Plot reads. -/
theorem vramRead_plotAddr (cfg : Config) (p : Params) (d : Devices) (x y : Nat) :
    d.vramRead cfg (plotAddr cfg p x y) = Memory.read d.vram (plotAddr cfg p x y) := by
  rw [Devices.vramRead, plotAddr_mod]

/-- R184: one word of VRAM is written back, and the cursor stands behind it. -/
theorem plot_dev (c : Byte) (x y : Nat) (s : State) :
    (plot c (x, y) s).dev =
      { s.dev with
        vram := Memory.write s.dev.vram (plotAddr s.cfg s.par x y)
          (plotWord x c (Memory.read s.dev.vram (plotAddr s.cfg s.par x y)))
        wrCursor := (plotAddr s.cfg s.par x y + 1) % s.cfg.vramWords } := by
  simp [plot, issueVramRead, Devices.apply, vramRead_plotAddr, plotAddr_mod]

/-- R184: the three operations of a Plot, in this order. -/
theorem plot_trace (c : Byte) (x y : Nat) (s : State) :
    (plot c (x, y) s).trace = s.trace ++
      [.vramRead (plotAddr s.cfg s.par x y) (Memory.read s.dev.vram (plotAddr s.cfg s.par x y)),
        .vramSetCursor (plotAddr s.cfg s.par x y),
        .vramWrite (plotWord x c (Memory.read s.dev.vram (plotAddr s.cfg s.par x y)))] := by
  simp [plot, issueVramRead, vramRead_plotAddr]

/-- Settles O42: what a Plot issues, what its write leaves in VRAM, and the cursors. -/
theorem plotReplacesOnePixelByte : Obligations.PlotReplacesOnePixelByte := by
  unfold Obligations.PlotReplacesOnePixelByte
  intro s c x y hwf a w w' t
  have hdev : t.dev = _ := plot_dev c x y s
  refine ⟨plot_trace c x y s, ?_, fun b hb => ?_, ?_, ?_, ?_⟩
  · rw [hdev]
    exact Memory.read_write_same _ _ _ hwf
  · rw [hdev]
    exact Memory.read_write_other _ _ _ _ hb
  all_goals rw [hdev]
  rfl

/-! ### The operations of all plots -/

/-- The sink operations of the plots of these points: each point's three, for some word read (R180, R184). -/
inductive PlotOps (cfg : Config) (p : Params) (c : Byte) : List (Nat × Nat) → List SinkOp → Prop
  | nil : PlotOps cfg p c [] []
  | cons (x y : Nat) (w : Half) {pts : List (Nat × Nat)} {ops : List SinkOp} (h : PlotOps cfg p c pts ops) :
    PlotOps cfg p c ((x, y) :: pts)
      (.vramRead (plotAddr cfg p x y) w :: .vramSetCursor (plotAddr cfg p x y) :: .vramWrite (plotWord x c w) :: ops)

/-- Plotting appends the plots' operations to the trace. -/
theorem plotAll_trace (c : Byte) (pts : List (Nat × Nat)) :
    ∀ s : State, ∃ ops, PlotOps s.cfg s.par c pts ops ∧ (plotAll c pts s).trace = s.trace ++ ops := by
  induction pts with
  | nil => exact fun s => ⟨[], .nil, (List.append_nil _).symm⟩
  | cons pt rest ih =>
    intro s
    obtain ⟨x, y⟩ := pt
    obtain ⟨ops, hops, htrace⟩ := ih (plot c (x, y) s)
    refine ⟨_, .cons x y (Memory.read s.dev.vram (plotAddr s.cfg s.par x y)) hops, htrace.trans ?_⟩
    rw [plot_trace, List.append_assoc]
    rfl

/-- DRAW_LINE's trace is that of its plots. -/
theorem plotOps_execDrawLine (h : execDrawLine s = .next t) : PlotOps s.cfg s.par s.par.color (linePoints s.par) t.trace := by
  cases h
  obtain ⟨ops, hops, htrace⟩ := plotAll_trace s.par.color (linePoints s.par) (beginCommand s)
  rw [htrace]
  exact hops

/-- Three operations per point. -/
theorem PlotOps.length_eq {cfg : Config} {p : Params} {pts : List (Nat × Nat)} {ops : List SinkOp}
    (h : PlotOps cfg p c pts ops) : ops.length = 3 * pts.length := by
  induction h with
  | nil => rfl
  | cons x y w _ ih => simp only [List.length_cons, ih]; omega

/-- The operations of the point at index `j`. -/
theorem PlotOps.getElem? {cfg : Config} {p : Params} {pts : List (Nat × Nat)} {ops : List SinkOp}
    (h : PlotOps cfg p c pts ops) : ∀ {j x y : Nat}, pts[j]? = some (x, y) → ∃ w,
      ops[3 * j]? = some (.vramRead (plotAddr cfg p x y) w) ∧
      ops[3 * j + 1]? = some (.vramSetCursor (plotAddr cfg p x y)) ∧
      ops[3 * j + 2]? = some (.vramWrite (plotWord x c w)) := by
  induction h with
  | nil => exact fun hj => nomatch hj
  | cons x y w _ ih =>
    intro j
    cases j with
    | zero =>
      intro x' y' hj
      cases hj
      exact ⟨w, rfl, rfl, rfl⟩
    | succ j => exact ih

/-- VRAM operations change VRAM, its cursor and the trace. -/
theorem Issues.vram_frame (h : Issues false s t) :
    t = { s with dev := { s.dev with vram := t.dev.vram, wrCursor := t.dev.wrCursor }, sinkLog := t.sinkLog } := by
  obtain ⟨hpal, hcur⟩ := h.pal_eq
  obtain ⟨d, ops, rfl⟩ := h.frame
  simp [← hpal, ← hcur]

/-- Settles O40: the operations of DRAW_LINE's points in order, and its frame. -/
theorem drawLinePlotsItsPoints : Obligations.DrawLinePlotsItsPoints := by
  unfold Obligations.DrawLinePlotsItsPoints
  intro s
  have hops := plotOps_execDrawLine (s := s) rfl
  refine ⟨_, rfl, hops.length_eq, fun j x y => hops.getElem?, ?_⟩
  exact (issues_execDrawLine (s := s) rfl).vram_frame

/-! ### The pixel bytes in VRAM -/

/-- The byte of a word in which column `x` has its pixel: the high byte for even columns, the low byte for odd ones (R184). -/
def pixelByte (x : Nat) (w : Half) : Byte := if x % 2 = 0 then w.extractLsb' 8 8 else w.extractLsb' 0 8

/-- R184: the word written back has the colour in the plotted column's byte and the old value in the other. -/
theorem pixelByte_plotWord (i x : Nat) (c : Byte) (w : Half) :
    pixelByte i (plotWord x c w) = if x % 2 = i % 2 then c else pixelByte i w := by
  have hhigh (p q : Byte) : (p ++ q).extractLsb' 8 8 = p := BitVec.extractLsb'_append_eq_left
  have hlow (p q : Byte) : (p ++ q).extractLsb' 0 8 = q := BitVec.extractLsb'_append_eq_right
  rcases Nat.mod_two_eq_zero_or_one i with hi | hi <;> rcases Nat.mod_two_eq_zero_or_one x with hx | hx <;>
    simp [pixelByte, plotWord, hi, hx, hhigh, hlow]

/-- One Plot: the pixel byte of column `i` at `a` becomes the colour exactly when it is the plotted point's. -/
theorem pixelByte_plot (hwf : Memory.wf s.dev.vram) (c : Byte) (x y i a : Nat) :
    pixelByte i (Memory.read (plot c (x, y) s).dev.vram a) =
      if x % 2 = i % 2 ∧ plotAddr s.cfg s.par x y = a then c else pixelByte i (Memory.read s.dev.vram a) := by
  rw [plot_dev]
  by_cases ha : plotAddr s.cfg s.par x y = a
  · subst ha
    rw [Memory.read_write_same _ _ _ hwf, pixelByte_plotWord]
    simp
  · rw [Memory.read_write_other _ _ _ _ (Ne.symm ha), if_neg fun h => ha h.2]

theorem wf_vram_plot (hwf : Memory.wf s.dev.vram) (c : Byte) (x y : Nat) : Memory.wf (plot c (x, y) s).dev.vram := by
  rw [plot_dev]
  exact Memory.wf_write _ _ _ hwf

/-- The pixel byte of column `i` at address `a` is that of one of the points (R185). -/
def PlotsByte (cfg : Config) (p : Params) (pts : List (Nat × Nat)) (i a : Nat) : Prop :=
  ∃ x y, (x, y) ∈ pts ∧ x % 2 = i % 2 ∧ plotAddr cfg p x y = a

theorem plotsByte_cons {cfg : Config} {p : Params} {pts : List (Nat × Nat)} {x y i a : Nat} :
    PlotsByte cfg p ((x, y) :: pts) i a ↔ (x % 2 = i % 2 ∧ plotAddr cfg p x y = a) ∨ PlotsByte cfg p pts i a := by
  constructor
  · rintro ⟨x', y', hmem, hbyte⟩
    rcases List.mem_cons.1 hmem with heq | hmem
    · cases heq
      exact .inl hbyte
    · exact .inr ⟨x', y', hmem, hbyte⟩
  · rintro (hbyte | ⟨x', y', hmem, hbyte⟩)
    · exact ⟨x, y, List.mem_cons_self, hbyte⟩
    · exact ⟨x', y', List.mem_cons_of_mem _ hmem, hbyte⟩

/-- All plots: a pixel byte that is one of the points' becomes the colour, any other keeps its value. -/
theorem pixelByte_plotAll (c : Byte) (i a : Nat) (pts : List (Nat × Nat)) : ∀ {s : State}, Memory.wf s.dev.vram →
    (PlotsByte s.cfg s.par pts i a → pixelByte i (Memory.read (plotAll c pts s).dev.vram a) = c) ∧
    (¬PlotsByte s.cfg s.par pts i a →
      pixelByte i (Memory.read (plotAll c pts s).dev.vram a) = pixelByte i (Memory.read s.dev.vram a)) := by
  induction pts with
  | nil => exact fun _ => ⟨nofun, fun _ => rfl⟩
  | cons pt rest ih =>
    intro s hwf
    obtain ⟨x, y⟩ := pt
    obtain ⟨hcoloured, hkept⟩ := ih (wf_vram_plot hwf c x y)
    rw [plotsByte_cons]
    by_cases hrest : PlotsByte s.cfg s.par rest i a
    · exact ⟨fun _ => hcoloured hrest, fun hnot => absurd (.inr hrest) hnot⟩
    · have hfirst := (hkept hrest).trans (pixelByte_plot hwf c x y i a)
      exact ⟨fun h => hfirst.trans (if_pos (h.resolve_right hrest)), fun hnot => hfirst.trans (if_neg fun h => hnot (.inl h))⟩

/-- Settles O41: the even columns' bytes and the odd columns' bytes of VRAM. -/
theorem drawLineColoursExactlyItsPixels : Obligations.DrawLineColoursExactlyItsPixels := by
  unfold Obligations.DrawLineColoursExactlyItsPixels
  intro s t _ hwf h a
  cases h
  have hbytes (i : Nat) := pixelByte_plotAll s.par.color i a (linePoints s.par) (s := beginCommand s) hwf
  obtain ⟨hhigh, hhighKept⟩ := hbytes 0
  obtain ⟨hlow, hlowKept⟩ := hbytes 1
  refine ⟨hhigh, hlow, fun hnot => hhighKept ?_, fun hnot => hlowKept ?_⟩
  · rintro ⟨x, y, hmem, hx, ha⟩
    exact hnot x y hmem hx ha
  · rintro ⟨x, y, hmem, hx, ha⟩
    exact hnot x y hmem hx ha

end Sys2Proof.Machine
end

section
/-! PROOFS. The Bresenham recurrence of DRAW_LINE (44_line_rasterizer.md R181, R182): an invariant that counts its x steps and its y
steps and bounds `err`. -/

namespace Sys2Proof.Machine

variable {l : LineSetup} {p : LinePos} {x0 y0 a b : Int} {n : Nat}

/-! ### One step -/

/-- R182: `e2 >= dy` adds `dy`, `e2 <= dx` adds `dx`, both against the same `e2`. -/
theorem lineStep_err (l : LineSetup) (p : LinePos) :
    (lineStep l p).err = p.err + (if 2 * p.err ≥ l.dy then l.dy else 0) + (if 2 * p.err ≤ l.dx then l.dx else 0) := by
  unfold lineStep stepY stepX
  split_ifs <;> simp

theorem lineStep_x (l : LineSetup) (p : LinePos) :
    (lineStep l p).x = p.x + (if 2 * p.err ≥ l.dy then l.sx else 0) := by
  unfold lineStep stepY stepX
  split_ifs <;> simp

theorem lineStep_y (l : LineSetup) (p : LinePos) :
    (lineStep l p).y = p.y + (if 2 * p.err ≤ l.dx then l.sy else 0) := by
  unfold lineStep stepY stepX
  split_ifs <;> simp

theorem stepX_err (l : LineSetup) (e2 : Int) (p : LinePos) :
    (stepX l e2 p).err = p.err + (if e2 ≥ l.dy then l.dy else 0) := by
  unfold stepX
  split_ifs <;> simp

theorem atEnd_iff (l : LineSetup) (p : LinePos) : atEnd l p = true ↔ p.x = l.xe ∧ p.y = l.ye := by
  simp [atEnd]

/-! ### The invariant of the recurrence -/

/-- After `n` steps from `(x0, y0)`, `a` of them in x and `b` of them in y. A line at least as wide as high has taken the x step
every time and keeps `err` in the range in which it will take it again; a line at least as high as wide likewise in y. -/
structure Stepped (x0 y0 : Int) (l : LineSetup) (n : Nat) (a b : Int) (p : LinePos) : Prop where
  x : p.x = x0 + a * l.sx
  y : p.y = y0 + b * l.sy
  err : p.err = (1 + b) * l.dx + (1 + a) * l.dy
  xSteps : 0 ≤ a ∧ a ≤ n
  ySteps : 0 ≤ b ∧ b ≤ n
  wide : -l.dy ≤ l.dx → a = n ∧ l.dy ≤ 2 * p.err ∧ 2 * p.err ≤ 3 * l.dx + 2 * l.dy
  high : l.dx ≤ -l.dy → b = n ∧ 2 * p.err ≤ l.dx ∧ 3 * l.dy + 2 * l.dx ≤ 2 * p.err

theorem stepped_lineStart (hdy : l.dy ≤ 0) : Stepped x0 y0 l 0 0 0 (lineStart x0 y0 l) where
  x := by simp [lineStart]
  y := by simp [lineStart]
  err := by simp [lineStart]
  xSteps := by simp
  ySteps := by simp
  wide _ := by simp only [lineStart]; omega
  high _ := by simp only [lineStart]; omega

/-- Each step of R182 counts in x when `e2 >= dy` and in y when `e2 <= dx`. -/
theorem Stepped.lineStep (h : Stepped x0 y0 l n a b p) (hdx : 0 ≤ l.dx) (hdy : l.dy ≤ 0) :
    Stepped x0 y0 l (n + 1) (a + if 2 * p.err ≥ l.dy then 1 else 0) (b + if 2 * p.err ≤ l.dx then 1 else 0)
      (lineStep l p) := by
  obtain ⟨hx, hy, herr, hxs, hys, hwide, hhigh⟩ := h
  constructor
  · rw [lineStep_x, hx]
    split_ifs <;> ring
  · rw [lineStep_y, hy]
    split_ifs <;> ring
  · rw [lineStep_err]
    split_ifs <;> linear_combination herr
  · split_ifs <;> omega
  · split_ifs <;> omega
  · rw [lineStep_err]
    intro hle
    obtain ⟨ha, hlow, hup⟩ := hwide hle
    split_ifs <;> omega
  · rw [lineStep_err]
    intro hle
    obtain ⟨hb, hup, hlow⟩ := hhigh hle
    split_ifs <;> omega

/-- The position after `n` steps of the walk. -/
def lineAt (x0 y0 : Int) (l : LineSetup) (n : Nat) : LinePos := (lineStep l)^[n] (lineStart x0 y0 l)

theorem lineAt_succ (x0 y0 : Int) (l : LineSetup) (n : Nat) : lineAt x0 y0 l (n + 1) = lineStep l (lineAt x0 y0 l n) :=
  Function.iterate_succ_apply' _ _ _

theorem exists_stepped (hdx : 0 ≤ l.dx) (hdy : l.dy ≤ 0) (x0 y0 : Int) (n : Nat) :
    ∃ a b, Stepped x0 y0 l n a b (lineAt x0 y0 l n) := by
  induction n with
  | zero => exact ⟨0, 0, stepped_lineStart hdy⟩
  | succ n ih =>
    obtain ⟨a, b, h⟩ := ih
    rw [lineAt_succ]
    exact ⟨_, _, h.lineStep hdx hdy⟩

/-! ### How far the steps have gone -/

/-- The shorter axis, `m` long, is not overrun while the longer one, `M` long, has taken at most `M` steps. -/
theorem minorSteps_le {M m n b e : Int} (he : e = (1 + b) * M - (1 + n) * m) (hup : 2 * e ≤ 3 * M - 2 * m)
    (hm : 0 ≤ m) (hbn : b ≤ n) (hn : n ≤ M) : b ≤ m := by
  by_contra hlt
  have hM : 0 < M := by omega
  nlinarith [mul_le_mul_of_nonneg_right (show m + 1 ≤ b by omega) hM.le, mul_le_mul_of_nonneg_right hn hm]

/-- The shorter axis has taken all its steps when the longer one has. -/
theorem le_minorSteps {M m b e : Int} (he : e = (1 + b) * M - (1 + M) * m) (hlow : -m ≤ 2 * e)
    (hb : 0 ≤ b) (hmM : m ≤ M) : m ≤ b := by
  by_contra hlt
  nlinarith [mul_le_mul_of_nonneg_right (show b + 1 ≤ m by omega) (show 0 ≤ M by omega)]

/-- R186: until the longer axis is done, neither axis has gone beyond the end point. -/
theorem Stepped.steps_le (h : Stepped x0 y0 l n a b p) (hdx : 0 ≤ l.dx) (hdy : l.dy ≤ 0) (hn : (n : Int) ≤ max l.dx (-l.dy)) :
    a ≤ l.dx ∧ b ≤ -l.dy := by
  obtain ⟨-, -, herr, ⟨-, han⟩, ⟨-, hbn⟩, hwide, hhigh⟩ := h
  rcases le_total (-l.dy) l.dx with hle | hle
  · obtain ⟨rfl, -, hup⟩ := hwide hle
    rw [max_eq_left hle] at hn
    exact ⟨hn, minorSteps_le (e := p.err) (by linear_combination herr) (by omega) (by omega) hbn hn⟩
  · obtain ⟨rfl, -, hlow⟩ := hhigh hle
    rw [max_eq_right hle] at hn
    exact ⟨minorSteps_le (e := -p.err) (by linear_combination -herr) (by omega) hdx han hn, hn⟩

/-- R183: when the longer axis is done, both have taken all their steps. -/
theorem Stepped.steps_eq (h : Stepped x0 y0 l n a b p) (hdx : 0 ≤ l.dx) (hdy : l.dy ≤ 0) (hn : (n : Int) = max l.dx (-l.dy)) :
    a = l.dx ∧ b = -l.dy := by
  obtain ⟨hax, hby⟩ := h.steps_le hdx hdy hn.le
  obtain ⟨-, -, herr, ⟨ha, -⟩, ⟨hb, -⟩, hwide, hhigh⟩ := h
  rcases le_total (-l.dy) l.dx with hle | hle
  · obtain ⟨rfl, hlow, -⟩ := hwide hle
    rw [max_eq_left hle] at hn
    rw [hn] at herr
    exact ⟨hn, hby.antisymm (le_minorSteps (e := p.err) (by linear_combination herr) (by omega) hb hle)⟩
  · obtain ⟨rfl, hup, -⟩ := hhigh hle
    rw [max_eq_right hle] at hn
    rw [hn] at herr
    exact ⟨hax.antisymm (le_minorSteps (e := -p.err) (by linear_combination -herr) (by omega) ha hle), hn⟩

/-- R181: `err`, doubled, stays within three times the longer axis; between the x step and the y step too, because the x step is
taken only from an `err` of at least half of `dy`. -/
theorem Stepped.err_bound (h : Stepped x0 y0 l n a b p) (hdx : 0 ≤ l.dx) (hdy : l.dy ≤ 0) {M : Int} (hx : l.dx ≤ M)
    (hy : -l.dy ≤ M) : |2 * p.err| ≤ 3 * M ∧ |2 * (stepX l (2 * p.err) p).err| ≤ 3 * M := by
  have hwide := h.wide
  have hhigh := h.high
  rw [stepX_err, abs_le, abs_le]
  split_ifs <;> omega

/-! ### One axis of the setup -/

/-- Steps towards the end, not more than there are: the distance gone is their number. -/
theorem abs_mul_sign_of_le {d k : Int} (hk : 0 ≤ k) (hkd : k ≤ |d|) : |k * d.sign| = k := by
  rcases eq_or_ne d 0 with rfl | hd
  · rw [abs_zero] at hkd
    simp [hkd.antisymm hk]
  · rw [abs_mul, Int.abs_sign_of_ne_zero hd, mul_one, abs_of_nonneg hk]

/-- All the steps lead to the end. -/
theorem add_abs_mul_sign (u v : Int) : u + |v - u| * (v - u).sign = v := by
  rw [mul_comm, Int.sign_mul_abs]
  ring

/-- Not more steps than there are stay between the ends. -/
theorem add_mul_sign_mem {u v k : Int} (hk : 0 ≤ k) (hkd : k ≤ |v - u|) :
    min u v ≤ u + k * (v - u).sign ∧ u + k * (v - u).sign ≤ max u v := by
  rcases lt_trichotomy v u with hlt | rfl | hlt
  · rw [abs_of_neg (by omega)] at hkd
    rw [Int.sign_eq_neg_one_of_neg (by omega)]
    omega
  · simp
  · rw [abs_of_pos (by omega)] at hkd
    rw [Int.sign_eq_one_of_pos (by omega)]
    omega

theorem sign_sub_eq_ite (u v : Int) : (v - u).sign = if v > u then 1 else if v < u then -1 else 0 := by
  rcases lt_trichotomy v u with hlt | rfl | hlt
  · rw [Int.sign_eq_neg_one_of_neg (by omega), if_neg (by omega), if_pos hlt]
  · simp
  · rw [Int.sign_eq_one_of_pos (by omega), if_pos hlt]

end Sys2Proof.Machine
end

section
/-! PROOFS. The walk of DRAW_LINE to its end (44_line_rasterizer.md R183, R186, R188): its positions, counted and bounded, and the
points that it plots. -/

namespace Sys2Proof.Machine

variable {l : LineSetup} {x0 y0 x1 y1 : Int} {n : Nat}

/-! ### The walk -/

/-- The walk that does not meet the end before its fuel runs out is the iteration of its step. -/
theorem lineWalk_eq_iterate (l : LineSetup) (fuel : Nat) : ∀ p : LinePos,
    (∀ j, j + 1 < fuel → atEnd l ((lineStep l)^[j] p) = false) → lineWalk l fuel p = List.iterate (lineStep l) p fuel := by
  induction fuel with
  | zero => exact fun _ _ => rfl
  | succ k ih =>
    intro p h
    rw [lineWalk, List.iterate]
    congr 1
    rcases k.eq_zero_or_pos with rfl | hk
    · split <;> rfl
    · have hgoesOn : atEnd l p = false := h 0 (by omega)
      rw [if_neg (Bool.eq_false_iff.1 hgoesOn)]
      exact ih _ fun j hj => h (j + 1) (by omega)

theorem lineSetup_dx_nonneg (x0 y0 x1 y1 : Int) : 0 ≤ (lineSetup x0 y0 x1 y1).dx := abs_nonneg _

theorem lineSetup_dy_nonpos (x0 y0 x1 y1 : Int) : (lineSetup x0 y0 x1 y1).dy ≤ 0 := neg_nonpos.2 (abs_nonneg _)

theorem lt_lineFuel_iff (hdx : 0 ≤ l.dx) : n < lineFuel l ↔ (n : Int) ≤ max l.dx (-l.dy) := by
  unfold lineFuel
  omega

/-- The steps taken at each position of a line, none of them beyond the end point. -/
theorem exists_stepped_lineSetup (hn : n < lineFuel (lineSetup x0 y0 x1 y1)) :
    ∃ a b, Stepped x0 y0 (lineSetup x0 y0 x1 y1) n a b (lineAt x0 y0 (lineSetup x0 y0 x1 y1) n) ∧
      a ≤ |x1 - x0| ∧ b ≤ |y1 - y0| := by
  have hdx := lineSetup_dx_nonneg x0 y0 x1 y1
  have hdy := lineSetup_dy_nonpos x0 y0 x1 y1
  obtain ⟨a, b, h⟩ := exists_stepped hdx hdy x0 y0 n
  obtain ⟨ha, hb⟩ := h.steps_le hdx hdy ((lt_lineFuel_iff hdx).1 hn)
  exact ⟨a, b, h, ha, hb.trans (neg_neg _).le⟩

/-- The position after `n` steps is `n` away from the start along one axis, and not further along the other. -/
theorem lineAt_distance (hn : n < lineFuel (lineSetup x0 y0 x1 y1)) :
    max |(lineAt x0 y0 (lineSetup x0 y0 x1 y1) n).x - x0| |(lineAt x0 y0 (lineSetup x0 y0 x1 y1) n).y - y0| = n := by
  obtain ⟨a, b, h, ha, hb⟩ := exists_stepped_lineSetup hn
  have hx : |(lineAt x0 y0 (lineSetup x0 y0 x1 y1) n).x - x0| = a := by
    rw [h.x, add_sub_cancel_left]
    exact abs_mul_sign_of_le h.xSteps.1 ha
  have hy : |(lineAt x0 y0 (lineSetup x0 y0 x1 y1) n).y - y0| = b := by
    rw [h.y, add_sub_cancel_left]
    exact abs_mul_sign_of_le h.ySteps.1 hb
  rw [hx, hy]
  rcases le_total (-(lineSetup x0 y0 x1 y1).dy) (lineSetup x0 y0 x1 y1).dx with hle | hle
  · obtain ⟨han, -⟩ := h.wide hle
    rw [← han]
    exact max_eq_left (h.ySteps.2.trans han.ge)
  · obtain ⟨hbn, -⟩ := h.high hle
    rw [← hbn]
    exact max_eq_right (h.xSteps.2.trans hbn.ge)

/-- R183: the end point is the last position and no earlier one. -/
theorem atEnd_lineAt_iff (hn : n < lineFuel (lineSetup x0 y0 x1 y1)) :
    atEnd (lineSetup x0 y0 x1 y1) (lineAt x0 y0 (lineSetup x0 y0 x1 y1) n) = true ↔
      n + 1 = lineFuel (lineSetup x0 y0 x1 y1) := by
  have hdx := lineSetup_dx_nonneg x0 y0 x1 y1
  have hdy := lineSetup_dy_nonpos x0 y0 x1 y1
  rw [atEnd_iff]
  constructor
  · rintro ⟨hx, hy⟩
    have hdist := lineAt_distance hn
    rw [hx, hy] at hdist
    simp only [lineFuel, lineSetup, neg_neg] at hdist ⊢
    omega
  · intro hlast
    obtain ⟨a, b, h⟩ := exists_stepped hdx hdy x0 y0 n
    obtain ⟨rfl, rfl⟩ := h.steps_eq hdx hdy (by unfold lineFuel at hlast; omega)
    refine ⟨h.x.trans (add_abs_mul_sign x0 x1), h.y.trans ?_⟩
    simp only [lineSetup, neg_neg]
    exact add_abs_mul_sign y0 y1

/-! ### The line in the registers -/

/-- What R181 computes from the registers. -/
def regSetup (p : Params) : LineSetup := lineSetup p.x0.toNat p.y0.toNat p.x1.toNat p.y1.toNat

/-- The position after `n` steps of the line in the registers. -/
def regLineAt (p : Params) (n : Nat) : LinePos := lineAt p.x0.toNat p.y0.toNat (regSetup p) n

/-- R188: the fuel is exactly used up. -/
theorem linePositions_eq (p : Params) : linePositions p = (List.range (lineFuel (regSetup p))).map (regLineAt p) := by
  refine (lineWalk_eq_iterate _ _ _ fun j hj => ?_).trans (List.range_map_iterate _ _ _).symm
  exact Bool.eq_false_iff.2 fun hend => hj.ne ((atEnd_lineAt_iff (Nat.lt_of_succ_lt hj)).1 hend)

theorem length_linePositions (p : Params) : (linePositions p).length = lineFuel (regSetup p) := by
  rw [linePositions_eq, List.length_map, List.length_range]

theorem linePositions_getElem? {p : Params} {j : Nat} {q : LinePos} :
    (linePositions p)[j]? = some q ↔ j < lineFuel (regSetup p) ∧ regLineAt p j = q := by
  rw [linePositions_eq, List.getElem?_eq_some_iff]
  simp

theorem mem_linePositions {p : Params} {q : LinePos} :
    q ∈ linePositions p ↔ ∃ n < lineFuel (regSetup p), regLineAt p n = q := by
  simp [linePositions_eq]

/-- The last position and those before it. -/
theorem linePositions_eq_concat (p : Params) : linePositions p =
    (List.range (max (regSetup p).dx (-(regSetup p).dy)).toNat).map (regLineAt p) ++
      [regLineAt p (max (regSetup p).dx (-(regSetup p).dy)).toNat] := by
  rw [linePositions_eq, lineFuel, List.range_succ, List.map_append]
  rfl

/-- Settles O43: the start, the recurrence, and the end point as the last position only. -/
theorem lineFollowsBresenhamSteps : Obligations.LineFollowsBresenhamSteps := by
  unfold Obligations.LineFollowsBresenhamSteps
  intro p x0 y0 x1 y1 dx dy sx sy q
  have hend (n : Nat) (hn : n < lineFuel (regSetup p)) :
      ((regLineAt p n).x = x1 ∧ (regLineAt p n).y = y1) ↔ n + 1 = lineFuel (regSetup p) :=
    (atEnd_iff (regSetup p) _).symm.trans (atEnd_lineAt_iff hn)
  refine ⟨rfl, fun j a b ha hb => ?_, fun a ha => ?_, fun a ha => ?_⟩
  · obtain ⟨-, rfl⟩ := linePositions_getElem?.1 ha
    obtain ⟨-, rfl⟩ := linePositions_getElem?.1 hb
    have hstep : regLineAt p (j + 1) = lineStep (regSetup p) (regLineAt p j) := lineAt_succ _ _ _ _
    have hsx : sx = (regSetup p).sx := (sign_sub_eq_ite x0 x1).symm
    have hsy : sy = (regSetup p).sy := (sign_sub_eq_ite y0 y1).symm
    rw [hstep, hsx, hsy]
    exact ⟨lineStep_err _ _, lineStep_x _ _, lineStep_y _ _⟩
  · rw [show q = _ from linePositions_eq_concat p, List.getLast?_concat, Option.some_inj] at ha
    subst ha
    exact (hend _ (Nat.lt_succ_self _)).2 rfl
  · rw [show q = _ from linePositions_eq_concat p, List.dropLast_concat] at ha
    obtain ⟨n, hn, rfl⟩ := List.mem_map.1 ha
    have hlt := List.mem_range.1 hn
    rw [hend n (Nat.lt_succ_of_lt hlt), lineFuel]
    omega

/-- R186: the rectangle of the end points. -/
theorem regLineAt_mem (p : Params) (hn : n < lineFuel (regSetup p)) :
    ((min p.x0.toNat p.x1.toNat : Nat) : Int) ≤ (regLineAt p n).x ∧
    (regLineAt p n).x ≤ ((max p.x0.toNat p.x1.toNat : Nat) : Int) ∧
    ((min p.y0.toNat p.y1.toNat : Nat) : Int) ≤ (regLineAt p n).y ∧
    (regLineAt p n).y ≤ ((max p.y0.toNat p.y1.toNat : Nat) : Int) := by
  obtain ⟨a, b, h, ha, hb⟩ := exists_stepped_lineSetup hn
  have hx := add_mul_sign_mem h.xSteps.1 ha
  have hy := add_mul_sign_mem h.ySteps.1 hb
  push_cast
  rw [show (regLineAt p n).x = _ from h.x, show (regLineAt p n).y = _ from h.y]
  exact ⟨hx.1, hx.2, hy.1, hy.2⟩

/-- No two positions of the line are the same point: their distances from the start differ. -/
theorem regLineAt_injOn (p : Params) {m : Nat} (hm : m < lineFuel (regSetup p)) (hn : n < lineFuel (regSetup p))
    (hx : (regLineAt p m).x = (regLineAt p n).x) (hy : (regLineAt p m).y = (regLineAt p n).y) : m = n := by
  have hdist : max |(regLineAt p m).x - p.x0.toNat| |(regLineAt p m).y - p.y0.toNat| = (m : Int) := lineAt_distance hm
  rw [hx, hy] at hdist
  exact Int.ofNat.inj (hdist.symm.trans (lineAt_distance hn))

theorem linePoints_nodup (p : Params) : (linePoints p).Nodup := by
  rw [linePoints, linePositions_eq, List.map_map]
  refine List.Nodup.map_on (fun m hm n hn heq => ?_) List.nodup_range
  have hm := List.mem_range.1 hm
  have hn := List.mem_range.1 hn
  have hmem := regLineAt_mem p hm
  have hmem' := regLineAt_mem p hn
  obtain ⟨hx, hy⟩ := Prod.mk.inj heq
  exact regLineAt_injOn p hm hn (by omega) (by omega)

/-- R188: one more point than the longer axis has steps. -/
theorem length_linePoints (p : Params) : (linePoints p).length =
    max ((p.x1.toNat : Int) - p.x0.toNat).natAbs ((p.y1.toNat : Int) - p.y0.toNat).natAbs + 1 := by
  rw [linePoints, List.length_map, length_linePositions]
  simp only [lineFuel, regSetup, lineSetup, neg_neg, Int.abs_eq_natAbs]
  omega

/-- Settles O44: the count, that the points are distinct, and three operations for each. -/
theorem linePointCountIsMaxPlusOne : Obligations.LinePointCountIsMaxPlusOne := by
  unfold Obligations.LinePointCountIsMaxPlusOne
  intro s t h dx dy
  have hcount := length_linePoints s.par
  exact ⟨hcount, linePoints_nodup s.par, (plotOps_execDrawLine h).length_eq.trans (congrArg (3 * ·) hcount)⟩

/-- R181: a value whose double stays within three times a 16-bit coordinate's range lies, doubled too, strictly within 2^18. -/
theorem within_of_abs_two_mul_le {e : Int} (h : |2 * e| ≤ 3 * 65535) :
    -2 ^ 18 < e ∧ e < 2 ^ 18 ∧ -2 ^ 18 < 2 * e ∧ 2 * e < 2 ^ 18 := by
  rw [abs_le] at h
  omega

/-- The distance of two 16-bit coordinates. -/
theorem abs_toNat_sub_toNat_le (u v : Half) : |(v.toNat : Int) - u.toNat| ≤ 65535 := by
  have hu := u.isLt
  have hv := v.isLt
  rw [abs_le]
  omega

/-- Settles O45: the rectangle of R186 and the bounds of R181, from coordinates of 16 bits. -/
theorem lineStaysInRectangle : Obligations.LineStaysInRectangle := by
  unfold Obligations.LineStaysInRectangle
  intro p q hq l e2
  obtain ⟨n, hn, rfl⟩ := mem_linePositions.1 hq
  have hdx : l.dx ≤ 65535 := abs_toNat_sub_toNat_le p.x0 p.x1
  have hdy : -l.dy ≤ 65535 := (neg_neg _).trans_le (abs_toNat_sub_toNat_le p.y0 p.y1)
  obtain ⟨a, b, h, -, -⟩ := exists_stepped_lineSetup hn
  obtain ⟨herr, hmid⟩ := h.err_bound (lineSetup_dx_nonneg _ _ _ _) (lineSetup_dy_nonpos _ _ _ _) hdx hdy
  obtain ⟨herrLow, herrHigh, he2Low, he2High⟩ := within_of_abs_two_mul_le herr
  obtain ⟨hmidLow, hmidHigh, -, -⟩ := within_of_abs_two_mul_le hmid
  obtain ⟨hxLow, hxHigh, hyLow, hyHigh⟩ := regLineAt_mem p hn
  exact ⟨hxLow, hxHigh, hyLow, hyHigh, herrLow, herrHigh, he2Low, he2High, hmidLow, hmidHigh⟩

end Sys2Proof.Machine
end

section
/-! PROOFS. `sign(0)` (44_line_rasterizer.md R187): on a vertical or a horizontal line the other axis's step is never taken. -/

namespace Sys2Proof.Machine

variable {l l' : LineSetup} {p : LinePos} {e : Int}

/-- `err` is `e`, and the walk goes on only when `e` is not 0. -/
structure ErrStays (l : LineSetup) (e : Int) (p : LinePos) : Prop where
  err : p.err = e
  atZero : e = 0 → atEnd l p = true

/-- Two setups with the same end point, whose steps agree as long as `err` is `e` and keep it so, have the same walk. -/
theorem lineWalk_eq_of_errStays (hend : atEnd l' = atEnd l) (he : e ≠ 0 → ∀ p : LinePos, p.err = e →
      lineStep l' p = lineStep l p ∧ (lineStep l p).err = e) (fuel : Nat) :
    ∀ {p : LinePos}, ErrStays l e p →
      (∀ q ∈ lineWalk l fuel p, q.err = e) ∧ lineWalk l' fuel p = lineWalk l fuel p := by
  induction fuel with
  | zero => exact fun _ => ⟨nofun, rfl⟩
  | succ k ih =>
    intro p h
    rw [lineWalk, lineWalk, hend]
    by_cases hp : atEnd l p = true
    · rw [if_pos hp, if_pos hp]
      exact ⟨fun q hq => (congrArg LinePos.err (List.mem_singleton.1 hq)).trans h.err, rfl⟩
    · have hne : e ≠ 0 := fun h0 => hp (h.atZero h0)
      obtain ⟨hstep, herr⟩ := he hne p h.err
      obtain ⟨hrest, hwalk⟩ := ih ⟨herr, fun h0 => absurd h0 hne⟩
      rw [if_neg hp, if_neg hp, hstep, hwalk]
      exact ⟨List.forall_mem_cons.2 ⟨h.err, hrest⟩, rfl⟩

/-- A vertical line takes no x step before its end. -/
theorem lineStep_of_vertical (hdx : l.dx = 0) (hdy : l.dy < 0) (herr : p.err = l.dy) :
    lineStep l p = { x := p.x, y := p.y + l.sy, err := l.dy } := by
  rw [lineStep, stepX, if_neg (by omega), stepY, if_pos (by omega), herr, hdx, add_zero]

/-- A horizontal line takes no y step before its end. -/
theorem lineStep_of_horizontal (hdy : l.dy = 0) (hdx : 0 < l.dx) (herr : p.err = l.dx) :
    lineStep l p = { x := p.x + l.sx, y := p.y, err := l.dx } := by
  rw [lineStep, stepX, if_pos (by omega), stepY, if_neg (by omega), herr, hdy, add_zero]

/-- Settles O46: `err` stays `dy` on a vertical line and `dx` on a horizontal one, so the step along the other axis is not taken. -/
theorem signOfZeroNeverMatters : Obligations.SignOfZeroNeverMatters := by
  unfold Obligations.SignOfZeroNeverMatters
  intro x0 y0 x1 y1 k fuel l walk
  refine ⟨fun hx => ?_, fun hy => ?_⟩
  · have hdx : l.dx = 0 := abs_eq_zero.2 (sub_eq_zero.2 hx)
    have hstart : ErrStays l l.dy (lineStart x0 y0 l) := by
      refine ⟨(congrArg (· + l.dy) hdx).trans (zero_add _), fun hdy => (atEnd_iff _ _).2 ⟨hx.symm, ?_⟩⟩
      exact (sub_eq_zero.1 (abs_eq_zero.1 (neg_eq_zero.1 hdy))).symm
    refine ⟨Int.sign_eq_zero_iff_zero.2 (sub_eq_zero.2 hx),
      lineWalk_eq_of_errStays (l := l) (l' := { l with sx := k }) rfl (fun hne p herr => ?_) fuel hstart⟩
    have hdy : l.dy < 0 := lt_of_le_of_ne (lineSetup_dy_nonpos x0 y0 x1 y1) hne
    have hstep := lineStep_of_vertical hdx hdy herr
    exact ⟨(lineStep_of_vertical (l := { l with sx := k }) hdx hdy herr).trans hstep.symm, congrArg LinePos.err hstep⟩
  · have hdy : l.dy = 0 := neg_eq_zero.2 (abs_eq_zero.2 (sub_eq_zero.2 hy))
    have hstart : ErrStays l l.dx (lineStart x0 y0 l) := by
      refine ⟨(congrArg (l.dx + ·) hdy).trans (add_zero _), fun hdx => (atEnd_iff _ _).2 ⟨?_, hy.symm⟩⟩
      exact (sub_eq_zero.1 (abs_eq_zero.1 hdx)).symm
    refine ⟨Int.sign_eq_zero_iff_zero.2 (sub_eq_zero.2 hy),
      lineWalk_eq_of_errStays (l := l) (l' := { l with sy := k }) rfl (fun hne p herr => ?_) fuel hstart⟩
    have hdx : 0 < l.dx := lt_of_le_of_ne (lineSetup_dx_nonneg x0 y0 x1 y1) (Ne.symm hne)
    have hstep := lineStep_of_horizontal hdy hdx herr
    exact ⟨(lineStep_of_horizontal (l := { l with sy := k }) hdy hdx herr).trans hstep.symm, congrArg LinePos.err hstep⟩

end Sys2Proof.Machine
end

section
/-! PROOFS. Which instruction takes which model fault (60_exceptions.md R203; 44_line_rasterizer.md: DRAW_LINE takes none). -/

namespace Sys2Proof.Machine

variable {s u : State} {c : FaultCause} {f : Fault}

/-! ### The pull -/

/-- The cause of a fault is that of the stop it came from. -/
theorem stopCommand_fault_cause {st : Stop} (h : stopCommand st s = .fault f) : st = .fault f.cause := by
  obtain ⟨c, rfl, rfl⟩ := stopCommand_eq_fault h
  simp

/-- A pull that stops by a fault read past source memory, or met in unchecked mode a RUN over its budget. -/
theorem PullStops.fault_cause (h : PullStops s u (.fault c)) :
    c = .srcRange ∨ c = .runOverrun ∧ s.par.chk = false ∧ ∃ n, overBudget s.puller n = true := by
  rcases h.why with hfetch | ⟨n, v, -, hover, hst⟩
  · rcases fetchToken_eq_error hfetch with ⟨hst, -⟩ | ⟨hst, -⟩
    · cases hst
    · cases hst; exact .inl rfl
  · rw [h.only.puller] at hover
    rw [h.only.par] at hst
    split at hst
    · cases hst
    · next hchk => cases hst; exact .inr ⟨rfl, eq_false_of_ne_true hchk, n, hover⟩

theorem nextPixel_fault_cause (hsize : s.cfg.srcSize ≤ 2 ^ 32 - 1) (hp : s.puller ≠ .idle) (h : nextPixel s = .fault f) :
    f.cause = .srcRange ∨ f.cause = .runOverrun ∧ s.par.chk = false ∧ ∃ n, overBudget s.puller n = true := by
  rcases nextPixel_cases s hsize hp with ⟨p, t, hn, -⟩ | ⟨-, u, st, hn, hstop, -⟩
  · cases hn.symm.trans h
  · cases stopCommand_fault_cause (hn.symm.trans h)
    exact hstop.fault_cause

/-! ### Each instruction that can fault -/

/-- With budget INF no RUN is over the budget (42_rle_decoder.md R143). -/
theorem execDecodePixel_fault_cause (hl : s.cfg.legal = true) (h : execDecodePixel s = .fault f) : f.cause = .srcRange := by
  obtain hpull | ⟨t, -, hlatch⟩ := andThen_eq_fault.1 h
  · rcases nextPixel_fault_cause (s := { beginCommand s with puller := .decodePixel })
      (Config.srcSize_le_of_legal hl) nofun hpull with hc | ⟨-, -, n, hover⟩
    · exact hc
    · cases hover
  · cases hlatch

/-- A faulting image stopped in one of its pulls, whose mode is the image's own. -/
theorem execDrawImage_fault_cause (hl : s.cfg.legal = true) (h : execDrawImage s = .fault f) :
    f.cause = .srcRange ∨ f.cause = .runOverrun ∧ s.par.chk = false := by
  have hclosed := HostSideKept.imageClosed hl
  have hbegin : HostSideKept s (beginImage s) := { hostSideKept_beginCommand s with }
  obtain hrows | ⟨t, -, hend⟩ := andThen_eq_fault.1 h
  · obtain ⟨u, hu, hp, hpull⟩ := hclosed.drawRows_stops _ 0 hbegin hrows nofun
    rcases nextPixel_fault_cause (hclosed.size u hu) hp hpull with hc | ⟨hc, hchk, -⟩
    · exact .inl hc
    · exact .inr ⟨hc, hu.par ▸ hchk⟩
  · cases hend

/-- The one check of CONVERT_PALETTE that faults is that of source memory (60_exceptions.md R204). -/
theorem execConvertPalette_fault_cause (h : execConvertPalette s = .fault f) : f.cause = .srcRange := by
  by_cases hlen : s.par.chk = true ∧ s.par.srcLen.toNat < s.par.palPtr.toNat + palBlockLen
  · cases (execConvertPalette_of_pastLen hlen.1 hlen.2).symm.trans h
  · rw [execConvertPalette_of_withinLen fun hchk => Nat.le_of_not_lt fun hlt => hlen ⟨hchk, hlt⟩] at h
    split at h
    · rw [takeFault_eq_fault.1 h, faultAt_cause]
    · split at h <;> cases h

theorem execRun_fault_cause {n : BitVec 6} {v : Byte} (h : execRun n v s = .fault f) :
    f.cause = .runOverrun ∧ s.par.chk = false := by
  cases hover : overBudget s.puller n with
  | false =>
    rw [execRun_of_within hover] at h
    split at h <;> cases h
  | true =>
    have hst := stopCommand_fault_cause ((execRun_of_over hover).symm.trans h)
    split at hst
    · cases hst
    · next hchk => exact ⟨(Stop.fault.inj hst).symm, eq_false_of_ne_true hchk⟩

/-! ### The fault table -/

/-- The fault table of 60_exceptions.md R203: which instruction takes a fault of this cause, and in which mode. -/
def FaultInTable (chk : Bool) (i : Instr) : FaultCause → Prop
  | .runOverrun => chk = false ∧ (i = .drawImage ∨ ∃ n v, i = .run n v)
  | .srcRange => i = .convertPalette ∨ i = .decodePixel ∨ i = .drawImage

/-- R203: a fault of an instruction is one that the table has for it. -/
theorem exec_fault_inTable {i : Instr} (hl : s.cfg.legal = true) (h : exec i s = .fault f) :
    FaultInTable s.par.chk i f.cause := by
  cases i with
  | convertPalette => rw [execConvertPalette_fault_cause h]; exact .inl rfl
  | decodePixel => rw [execDecodePixel_fault_cause hl h]; exact .inr (.inl rfl)
  | drawImage =>
    rcases execDrawImage_fault_cause hl h with hc | ⟨hc, hchk⟩
    · rw [hc]; exact .inr (.inr rfl)
    · rw [hc]; exact ⟨hchk, .inl rfl⟩
  | run n v =>
    obtain ⟨hc, hchk⟩ := execRun_fault_cause h
    rw [hc]; exact ⟨hchk, .inr ⟨n, v, rfl⟩⟩
  | _ => cases h

/-- Settles O58: every outcome is orderly, so not a refusal, and the two clauses on faults are the two rows of `FaultInTable`. -/
theorem faultsAreThoseOfTheTable : Obligations.FaultsAreThoseOfTheTable := by
  unfold Obligations.FaultsAreThoseOfTheTable
  exact fun i s hl =>
    ⟨(exec_orderly i s).unrefused, fun _ h => exec_fault_inTable hl h, fun _ h => exec_fault_inTable hl h⟩

end Sys2Proof.Machine
end

section
/-! PROOFS. Reset (70_reset_and_hazards.md R230): what the registers read after it, the invariant, and the commands at once
after it. -/

namespace Sys2Proof.Machine

variable {s : State}

/-! ### The registers after reset -/

/-- The state right after reset is one that a reset leaves as it is. -/
theorem resetBlock_reset : resetBlock State.reset = State.reset := rfl

theorem statusWord_resetBlock (s : State) : statusWord (resetBlock s) = 0#32 := by simp [statusWord, resetBlock]

theorem pixelWord_resetBlock (s : State) : pixelWord (resetBlock s) = 0#32 := by simp [pixelWord, resetBlock]

theorem decStateWord_resetBlock (s : State) : decStateWord (resetBlock s) = 0#32 := by simp [decStateWord, resetBlock]

/-- R21, R230: after reset CTRL reads 1 and every other number 0. -/
theorem readReg_resetBlock (n : Byte) (s : State) : readReg n (resetBlock s) = if n = 0x00#8 then 1#32 else 0#32 := by
  by_cases hn : n = 0x00#8
  · subst hn
    rfl
  · have hne : n.toNat ≠ 0x00 := fun h => hn (BitVec.eq_of_toNat_eq h)
    rw [if_neg hn]
    unfold readReg
    split
    case h_1 h => exact absurd h hne
    case h_3 => exact statusWord_resetBlock s
    case h_18 => exact pixelWord_resetBlock s
    case h_19 => exact decStateWord_resetBlock s
    all_goals rfl

/-- Settles O6: the step of the transaction is `resetBlock`, and so is the state right after reset. -/
theorem resetSetsRegistersOnly : Obligations.ResetSetsRegistersOnly := by
  unfold Obligations.ResetSetsRegistersOnly
  refine ⟨fun n => resetBlock_reset ▸ readReg_resetBlock n State.reset, fun s rest hready hq => ?_⟩
  exact ⟨_, step_of_inbox_cons hready hq, fun n => readReg_resetBlock n _, rfl, rfl, rfl, rfl, rfl, rfl, rfl, rfl, rfl, rfl⟩

/-- Settles O59: the standard configuration is legal, the memories list nothing, and every register is small. -/
theorem resetMeetsInvariant : Obligations.ResetMeetsInvariant where
  legal := by decide
  vramBase := Config.vramWords_pos _
  wrCursor := Config.vramWords_pos _
  srcWf := ⟨.nil, nofun⟩
  srcBelow := nofun
  vramWf := ⟨.nil, nofun⟩
  vramBelow := nofun
  palWf := ⟨.nil, nofun⟩
  palBelow := nofun
  err := Nat.zero_le 4
  runCnt := Nat.zero_le 62
  pendValid := rfl
  puller := rfl
  pulled := rfl

/-! ### Commands at once after reset -/

/-- R160: an image with pixels pulls its first token at SRC_PTR, before anything is drawn. -/
theorem imageReaches_nil (hw : s.par.width ≠ 0#16) (hh : s.par.height ≠ 0#16) : ImageReaches s [] [] where
  inside := BitVec.toNat_pos_of_ne_zero hh
  complete := nofun
  tokens := nofun
  partly := BitVec.toNat_pos_of_ne_zero hw
  holds := nofun

/-- R145, R161: an image whose first token reaches SRC_LEN sets the write cursor and draws nothing. -/
theorem execDrawImage_of_firstTokenPastLen (hl : s.cfg.legal = true) (hw : s.par.width ≠ 0#16)
    (hh : s.par.height ≠ 0#16) (hpast : TokenPastLen s s.srcPtr.toNat) :
    ∃ t, execDrawImage s = .next t ∧ t.err = 2#4 ∧ t.dev.vram = s.dev.vram := by
  obtain ⟨t, hexec, herr, -, -, -, -, -, htrace⟩ := execDrawImage_of_pastLen hl (imageReaches_nil hw hh) hpast
  refine ⟨t, hexec, herr, ?_⟩
  rw [(Accounts.execDrawImage hl hexec).replays.dev, htrace]
  rfl

/-- R230, R52: after reset every offset lies at or beyond SRC_LEN, in checked mode. -/
theorem tokenPastLen_resetBlock (s : State) (off : Nat) : TokenPastLen (resetBlock s) off := ⟨rfl, .inl (Nat.zero_le off)⟩

/-- Settles O7: SRC_LEN = 0 stops the first token of a pull and the palette block. -/
theorem commandsAfterResetReportEof : Obligations.CommandsAfterResetReportEof := by
  unfold Obligations.CommandsAfterResetReportEof
  intro s w h hl hw hh
  refine ⟨?_, ?_, ?_⟩
  · exact ⟨_, execDecodePixel_of_fetchToken_error rfl (fetchToken_of_pastLen (tokenPastLen_resetBlock s _)), rfl, rfl⟩
  · exact ⟨_, execConvertPalette_of_pastLen (s := resetBlock s) rfl (Nat.zero_lt_succ 768), rfl, rfl⟩
  · exact execDrawImage_of_firstTokenPastLen hl hw hh (tokenPastLen_resetBlock s _)

end Sys2Proof.Machine
end
